-- ==== Sys2Proof/Word.lean ====
section
/-! DEFINITION. The bit-vector types of HW_007 CORE, under the names the rest of the model uses.
Only what the spec treats as bits is a bit vector here; every intermediate result is an exact integer
(`00_scope.md` R11, R17). -/

namespace Sys2Proof

/-- A 32-bit word: an operation word (R70), a data word of `RE`/`IM` or of `BAND`, `ENERGY`, `AVG`
(R21 to R23, R35), a word of the host window (R55). -/
abbrev Word := BitVec 32

/-- A word address of the program ROM, the width of `PC` and `LR` (R26, R28). -/
abbrev ProgAddr := BitVec 8

/-- A coefficient word of the ROMs: signed, 18 bits, Q15 (R10, R37). -/
abbrev Coefficient := BitVec 18

/-- A value of `MODE`, recognised or not (R32). -/
abbrev ModeWord := BitVec 8

/-- A stored sample of `RAW`: unsigned, 12 bits (R34). -/
abbrev RawSample := BitVec 12

/-- One reading of the sample port: signed, 16 bits (R90). -/
abbrev Reading := BitVec 16

/-- A pixel word: red in bits 23 to 16, green in 15 to 8, blue in 7 to 0 (R36, R51). -/
abbrev Pixel := BitVec 24

/-- A word address of the host register window (R54). -/
abbrev WindowAddr := BitVec 12

end Sys2Proof
end

