-- ==== Sys2Proof/Syntax.lean ====
section
/-! DEFINITION. The operations of CORE-OPS v1 (`30_encoding.md` R72): one constructor per row of
spec/opcode_table.json, with the fields that row uses, in the order of R71. -/

namespace Sys2Proof

/-- The `bank` field (R71): 0 the live result, 1 the second triple. -/
abbrev Bank := Fin 2

/-- The `dir` field (R71): 0 up (`start, start + 1, ...`), 1 down (`start, start - 1, ...`). -/
inductive Dir where
  | up
  | down
deriving DecidableEq, Repr

/-- The `ceil` field (R71, R73): 0 selects the wash input ceiling 600, 1 selects 1500. -/
inductive Ceil where
  | c600
  | c1500
deriving DecidableEq, Repr

/-- The legal values of the `band` field (R71, R16): 0 bass, 1 mid, 2 treble; value 3 is reserved and no
operation carries it (R75). -/
inductive Band where
  | bass
  | mid
  | treble
deriving DecidableEq, Repr

/-- The 23 operations of CORE-OPS v1 (R72). -/
inductive Instr where
  /-- `NOP` 0x00 (R160). -/
  | nop
  /-- `HALT` 0x01 (R161). -/
  | halt
  /-- `ENDC` 0x02 (R162). -/
  | endc
  /-- `DISPATCH` 0x03 (R163). -/
  | dispatch
  /-- `RET` 0x04 (R164). -/
  | ret
  /-- `ACQ` 0x10 (R91). -/
  | acq
  /-- `RELOAD` 0x11 (R92). -/
  | reload
  /-- `DCR` 0x12 (R100). -/
  | dcr
  /-- `IIR` 0x13 (R101). -/
  | iir
  /-- `WIN` 0x14 (R103). -/
  | win
  /-- `FFT` 0x15 (R112). -/
  | fft
  /-- `MAG` 0x16 (R114). -/
  | mag
  /-- `BAND` 0x17 (R120). -/
  | band (bank : Bank)
  /-- `NRG` 0x18 (R121). -/
  | nrg (bank : Bank)
  /-- `NORM` 0x19 (R122). -/
  | norm (bank : Bank)
  /-- `SMOOTH` 0x1A (R130). -/
  | smooth
  /-- `CLEAR` 0x20 (R145). -/
  | clear
  /-- `TIER` 0x21 (R147). -/
  | tier (bank : Bank) (dir : Dir) (color : BitVec 3) (band : Band) (start : BitVec 6)
  /-- `EBKT` 0x22 (R148). -/
  | ebkt (bank : Bank) (dir : Dir) (color : BitVec 3) (len start : BitVec 6)
  /-- `WASH` 0x23 (R149). -/
  | wash (bank : Bank) (ceil : Ceil) (color : BitVec 3) (len start : BitVec 6)
  /-- `RAWC` 0x24 (R151). -/
  | rawc (color : BitVec 3) (start : BitVec 6)
  /-- `SWEEP` 0x25 (R153). -/
  | sweep (bank : Bank) (ceil : Ceil) (color : BitVec 3) (len start : BitVec 6)
  /-- `COMMIT` 0x26 (R158). -/
  | commit
deriving DecidableEq, Repr

end Sys2Proof
end

