-- ==== Sys2Proof/WellFormed.lean ====
section
/-! DEFINITION. Which terms of `Instr` are operations: the constraints of spec/opcode_table.json that the
types of Syntax.lean do not carry already (`30_encoding.md` R72, R75). -/

namespace Sys2Proof

/-- `len` is 1 to 63 wherever an operation uses it (R72, R75). The constraint `band != 3` of `TIER` is the type
`Band` itself. A footprint outside the pixel RAM is NOT ill-formed: such a word is legal and faults (R76). -/
def wellFormed : Instr → Bool
  | .nop | .halt | .endc | .dispatch | .ret => true
  | .acq | .reload | .dcr | .iir | .win | .fft | .mag => true
  | .band _ | .nrg _ | .norm _ | .smooth => true
  | .clear | .tier _ _ _ _ _ | .rawc _ _ | .commit => true
  | .ebkt _ _ _ len _ => len != 0
  | .wash _ _ _ len _ => len != 0
  | .sweep _ _ _ len _ => len != 0

end Sys2Proof
end

