-- ==== Sys2Proof/Decode.lean ====
section
/-! DEFINITION. The decoder and the encoder of CORE-OPS v1 (`30_encoding.md` R70 to R77). Every operation is one
32-bit word of one format, so the decoder takes a word and never tells a length (R77). It is total and
rejects by name. -/

namespace Sys2Proof

/-- Why a word is illegal (R75). Every one of them raises `ILLEGAL_OP`. -/
inductive Illegal where
  /-- The `op` field is not one of the 23 values of R72. -/
  | unknownOp (op : BitVec 8)
  /-- A bit the operation does not use, or an always-zero bit, is 1. -/
  | unusedBits
  /-- `TIER` with `band = 3`. -/
  | reservedBand
  /-- `EBKT`, `WASH` or `SWEEP` with `len = 0`. -/
  | zeroLength
deriving DecidableEq, Repr

/-- What a word is: one of the 23 operations or illegal, nothing else (R76). -/
inductive Decoded where
  | instr (i : Instr)
  | illegal (why : Illegal)
deriving DecidableEq, Repr

/-- `w[31:24]` (R71). -/
def opField (w : Word) : BitVec 8 := w.extractLsb' 24 8

/-- `w[23]` (R71). -/
def bankField (w : Word) : Bank := if w.extractLsb' 23 1 = 1#1 then 1 else 0

/-- `w[22]` (R71). -/
def dirField (w : Word) : Dir := if w.extractLsb' 22 1 = 1#1 then .down else .up

/-- `w[21]` (R71). -/
def ceilField (w : Word) : Ceil := if w.extractLsb' 21 1 = 1#1 then .c1500 else .c600

/-- `w[20:18]` (R71). -/
def colorField (w : Word) : BitVec 3 := w.extractLsb' 18 3

/-- `w[17:16]` (R71); 3 is reserved. -/
def bandField (w : Word) : Option Band :=
  match (w.extractLsb' 16 2).toNat with
  | 0 => some .bass
  | 1 => some .mid
  | 2 => some .treble
  | _ => none

/-- `w[13:8]` (R71). -/
def lenField (w : Word) : BitVec 6 := w.extractLsb' 8 6

/-- `w[5:0]` (R71). -/
def startField (w : Word) : BitVec 6 := w.extractLsb' 0 6

/-- Accept `d` when the bits of `unused` are all zero in `w` (R72, R75). -/
def requireZero (w unused : Word) (d : Decoded) : Decoded :=
  if w &&& unused = 0 then d else .illegal .unusedBits

/-- Accept `i` when the `len` field is not 0 (R75). -/
def requireLength (w : Word) (i : Instr) : Decoded :=
  if lenField w = 0 then .illegal .zeroLength else .instr i

/-- Decode one operation word (R74, R75). The mask beside each operation code is that row's mask in
spec/opcode_table.json without the `op` bits: the bits the operation must have zero. -/
def decode (w : Word) : Decoded :=
  match (opField w).toNat with
  | 0x00 => requireZero w 0x00FFFFFF (.instr .nop)
  | 0x01 => requireZero w 0x00FFFFFF (.instr .halt)
  | 0x02 => requireZero w 0x00FFFFFF (.instr .endc)
  | 0x03 => requireZero w 0x00FFFFFF (.instr .dispatch)
  | 0x04 => requireZero w 0x00FFFFFF (.instr .ret)
  | 0x10 => requireZero w 0x00FFFFFF (.instr .acq)
  | 0x11 => requireZero w 0x00FFFFFF (.instr .reload)
  | 0x12 => requireZero w 0x00FFFFFF (.instr .dcr)
  | 0x13 => requireZero w 0x00FFFFFF (.instr .iir)
  | 0x14 => requireZero w 0x00FFFFFF (.instr .win)
  | 0x15 => requireZero w 0x00FFFFFF (.instr .fft)
  | 0x16 => requireZero w 0x00FFFFFF (.instr .mag)
  | 0x17 => requireZero w 0x007FFFFF (.instr (.band (bankField w)))
  | 0x18 => requireZero w 0x007FFFFF (.instr (.nrg (bankField w)))
  | 0x19 => requireZero w 0x007FFFFF (.instr (.norm (bankField w)))
  | 0x1A => requireZero w 0x00FFFFFF (.instr .smooth)
  | 0x20 => requireZero w 0x00FFFFFF (.instr .clear)
  | 0x21 => requireZero w 0x0020FFC0
      (match bandField w with
        | some b => .instr (.tier (bankField w) (dirField w) (colorField w) b (startField w))
        | none => .illegal .reservedBand)
  | 0x22 => requireZero w 0x0023C0C0
      (requireLength w (.ebkt (bankField w) (dirField w) (colorField w) (lenField w) (startField w)))
  | 0x23 => requireZero w 0x0043C0C0
      (requireLength w (.wash (bankField w) (ceilField w) (colorField w) (lenField w) (startField w)))
  | 0x24 => requireZero w 0x00E3FFC0 (.instr (.rawc (colorField w) (startField w)))
  | 0x25 => requireZero w 0x0043C0C0
      (requireLength w (.sweep (bankField w) (ceilField w) (colorField w) (lenField w) (startField w)))
  | 0x26 => requireZero w 0x00FFFFFF (.instr .commit)
  | _ => .illegal (.unknownOp (opField w))

/-! ### The encoder -/

/-- The bit of a bank (R71). -/
def bankBit (b : Bank) : BitVec 1 := BitVec.ofNat 1 b.val

/-- The bit of a direction (R71). -/
def dirBit : Dir → BitVec 1
  | .up => 0
  | .down => 1

/-- The bit of a ceiling (R71, R73). -/
def ceilBit : Ceil → BitVec 1
  | .c600 => 0
  | .c1500 => 1

/-- The code of a band (R16, R71). -/
def bandCode : Band → BitVec 2
  | .bass => 0
  | .mid => 1
  | .treble => 2

/-- The single format F (R71): the fields in order, most significant first, with the two always-zero pairs. -/
def formatF (op : BitVec 8) (bank dir ceil : BitVec 1) (color : BitVec 3) (band : BitVec 2)
    (len start : BitVec 6) : Word :=
  op ++ bank ++ dir ++ ceil ++ color ++ band ++ 0#2 ++ len ++ 0#2 ++ start

/-- An operation that uses no field (R72). -/
def bareOp (op : BitVec 8) : Word := formatF op 0 0 0 0 0 0 0

/-- The word of an operation (R71, R72): a field it does not use is 0. -/
def encode : Instr → Word
  | .nop => bareOp 0x00
  | .halt => bareOp 0x01
  | .endc => bareOp 0x02
  | .dispatch => bareOp 0x03
  | .ret => bareOp 0x04
  | .acq => bareOp 0x10
  | .reload => bareOp 0x11
  | .dcr => bareOp 0x12
  | .iir => bareOp 0x13
  | .win => bareOp 0x14
  | .fft => bareOp 0x15
  | .mag => bareOp 0x16
  | .band bank => formatF 0x17 (bankBit bank) 0 0 0 0 0 0
  | .nrg bank => formatF 0x18 (bankBit bank) 0 0 0 0 0 0
  | .norm bank => formatF 0x19 (bankBit bank) 0 0 0 0 0 0
  | .smooth => bareOp 0x1A
  | .clear => bareOp 0x20
  | .tier bank dir color band start => formatF 0x21 (bankBit bank) (dirBit dir) 0 color (bandCode band) 0 start
  | .ebkt bank dir color len start => formatF 0x22 (bankBit bank) (dirBit dir) 0 color 0 len start
  | .wash bank ceil color len start => formatF 0x23 (bankBit bank) 0 (ceilBit ceil) color 0 len start
  | .rawc color start => formatF 0x24 0 0 0 color 0 0 start
  | .sweep bank ceil color len start => formatF 0x25 (bankBit bank) 0 (ceilBit ceil) color 0 len start
  | .commit => bareOp 0x26

/-! ### The opcode map as rows (R74) -/

/-- One row of the opcode map of R74. -/
structure OpcodeRow where
  mnemonic : String
  value : Word
  mask : Word
  /-- the row's extra constraint is `band != 3` -/
  bandLegal : Bool
  /-- the row's extra constraint is `len != 0` -/
  lenNonzero : Bool
deriving DecidableEq, Repr

/-- The row of an operation: mnemonic, match, mask and extra constraint as R74 prints them. -/
def opcodeRow : Instr → OpcodeRow
  | .nop => ⟨"NOP", 0x00000000, 0xFFFFFFFF, false, false⟩
  | .halt => ⟨"HALT", 0x01000000, 0xFFFFFFFF, false, false⟩
  | .endc => ⟨"ENDC", 0x02000000, 0xFFFFFFFF, false, false⟩
  | .dispatch => ⟨"DISPATCH", 0x03000000, 0xFFFFFFFF, false, false⟩
  | .ret => ⟨"RET", 0x04000000, 0xFFFFFFFF, false, false⟩
  | .acq => ⟨"ACQ", 0x10000000, 0xFFFFFFFF, false, false⟩
  | .reload => ⟨"RELOAD", 0x11000000, 0xFFFFFFFF, false, false⟩
  | .dcr => ⟨"DCR", 0x12000000, 0xFFFFFFFF, false, false⟩
  | .iir => ⟨"IIR", 0x13000000, 0xFFFFFFFF, false, false⟩
  | .win => ⟨"WIN", 0x14000000, 0xFFFFFFFF, false, false⟩
  | .fft => ⟨"FFT", 0x15000000, 0xFFFFFFFF, false, false⟩
  | .mag => ⟨"MAG", 0x16000000, 0xFFFFFFFF, false, false⟩
  | .band _ => ⟨"BAND", 0x17000000, 0xFF7FFFFF, false, false⟩
  | .nrg _ => ⟨"NRG", 0x18000000, 0xFF7FFFFF, false, false⟩
  | .norm _ => ⟨"NORM", 0x19000000, 0xFF7FFFFF, false, false⟩
  | .smooth => ⟨"SMOOTH", 0x1A000000, 0xFFFFFFFF, false, false⟩
  | .clear => ⟨"CLEAR", 0x20000000, 0xFFFFFFFF, false, false⟩
  | .tier _ _ _ _ _ => ⟨"TIER", 0x21000000, 0xFF20FFC0, true, false⟩
  | .ebkt _ _ _ _ _ => ⟨"EBKT", 0x22000000, 0xFF23C0C0, false, true⟩
  | .wash _ _ _ _ _ => ⟨"WASH", 0x23000000, 0xFF43C0C0, false, true⟩
  | .rawc _ _ => ⟨"RAWC", 0x24000000, 0xFFE3FFC0, false, false⟩
  | .sweep _ _ _ _ _ => ⟨"SWEEP", 0x25000000, 0xFF43C0C0, false, true⟩
  | .commit => ⟨"COMMIT", 0x26000000, 0xFFFFFFFF, false, false⟩

/-- A word meets a row: the masked bits match and the row's extra constraint holds (R74). -/
def OpcodeRow.admits (r : OpcodeRow) (w : Word) : Bool :=
  (w &&& r.mask == r.value) && (!r.bandLegal || w.extractLsb' 16 2 != 3#2) && (!r.lenNonzero || w.extractLsb' 8 6 != 0#6)

/-- The operation words of `ANALYZE bank=k` (R79): the analyzer's steps 1 to 8. -/
def analyze (bank : Bank) : List Instr :=
  [.dcr, .iir, .win, .fft, .mag, .band bank, .nrg bank, .norm bank]

/-- The operation words of `BARS bank=k dir=d start=s` (R79): bass, mid, treble, six pixels apart. DESIGN CHOICE (log 19): R79
does not say what a start outside the field's 0 to 63 becomes, and the model keeps its low six bits. -/
def bars (bank : Bank) (dir : Dir) (start : BitVec 6) : List Instr :=
  let next (n : BitVec 6) : BitVec 6 := match dir with
    | .up => start + n
    | .down => start - n
  [.tier bank dir 1 .bass start, .tier bank dir 2 .mid (next 6), .tier bank dir 3 .treble (next 12)]

/-- The instruction read from an opcode-table word of `nbits` bits (bits above `nbits` are zero); every operation is
one 32-bit word (R70). -/
def decodeTableWord (nbits w : Nat) : Option Instr :=
  match decode (BitVec.ofNat 32 (w % 2 ^ nbits)) with
  | .instr i => some i
  | .illegal _ => none

end Sys2Proof
end

