-- ==== Sys2Proof/Config.lean ====
section
/-! DEFINITION. What an implementation of HW_007 CORE fixes: the scalar parameters of `00_scope.md` R10
(the tables are in Sys2Proof/Machine/Rom.lean), and the FREE VALUES: what the spec leaves to the environment
or leaves unspecified. A free value is an opaque constant without a body, so nothing can be proved of it. -/

namespace Sys2Proof

/-- The LED topology option of R4: A has groups of 16, 12, 16, 16 pixels, B has groups of 28, 32. -/
inductive Topology where
  | a
  | b
deriving DecidableEq, Repr

namespace Config

/-! ### Sizes and number formats (R10)

The widths of words and registers are the bit-vector types of Word.lean and State.lean; `width_*` below hold each to its
row of R10. The arrays' lengths in State are `blockLen` and `numPixels`, written out. -/

/-- `N`: block length and transform size (R10). -/
abbrev blockLen : Nat := 128

/-- `LOGN`: the base-2 logarithm of `N`, the number of the transform's stages (R10, R112). -/
abbrev logLen : Nat := 7

/-- `NPIX`: pixels in the frame (R10, R4). -/
abbrev numPixels : Nat := 60

/-- `DW`: bits of a data word (R10). -/
abbrev dataBits : Nat := 32

/-- `FRAC`: fraction bits of a data word (R10, R14). -/
abbrev fracBits : Nat := 8

/-- `CW`: bits of a coefficient word, signed (R10). -/
abbrev coeffBits : Nat := 18

/-- `CFRAC`: fraction bits of a coefficient word (R10, R14). -/
abbrev coeffFracBits : Nat := 15

/-- `SAMPLE_PORT_W`: bits of a sample reading, signed (R10, R90). -/
abbrev samplePortBits : Nat := 16

/-- `MODE_W`: bits of `MODE` (R10, R32). -/
abbrev modeBits : Nat := 8

/-- `PROG_WORDS`: words of the program ROM (R10, R37). -/
abbrev progWords : Nat := 256

/-- `PC_W`: bits of `PC` and `LR` (R10, R26). -/
abbrev pcBits : Nat := 8

/-- `TIME_W`: bits of a reading of the time base, in microseconds (R10, R192). -/
abbrev timeBits : Nat := 32

/-- 1.0 in Q8: 256 (R14). -/
def dataOne : Nat := 2 ^ fracBits

/-- 1.0 in Q15: 32768 (R14). -/
def coeffOne : Nat := 2 ^ coeffFracBits

/-- The data word has `DW` bits. -/
theorem width_word : Word = BitVec dataBits := rfl

/-- The coefficient word has `CW` bits. -/
theorem width_coefficient : Coefficient = BitVec coeffBits := rfl

/-- A sample reading has `SAMPLE_PORT_W` bits. -/
theorem width_reading : Reading = BitVec samplePortBits := rfl

/-- A program address has `PC_W` bits, and these name exactly `PROG_WORDS` words. -/
theorem width_progAddr : ProgAddr = BitVec pcBits ∧ 2 ^ pcBits = progWords := ⟨rfl, rfl⟩

/-- `MODE` has `MODE_W` bits. -/
theorem width_mode : ModeWord = BitVec modeBits := rfl

/-- A time reading has `TIME_W` bits. -/
theorem width_time : Word = BitVec timeBits := rfl

/-! ### Acquisition, smoothing -/

/-- `SAMPLING_FREQ` in Hz: timing only, so nothing reads it (R10, R211; log 14). -/
def samplingFreq : Nat := 10000

/-- `ADC_MIN`: least legal raw reading (R10, R91). -/
def adcMin : Int := 0

/-- `ADC_MAX`: greatest legal raw reading (R10, R91). -/
def adcMax : Int := 4095

/-- `ADC_MID`: what replaces an out-of-range first sample (R10, R91). -/
def adcMid : RawSample := 2048

/-- `COUNT_CAP`: where the smoother's count stops (R10, R130). -/
def countCap : Nat := 50

/-! ### Modes -/

/-- The least recognised mode (R10, R32). -/
abbrev modeMin : Nat := 1

/-- The greatest recognised mode (R10, R32). -/
abbrev modeMax : Nat := 7

/-- The recognised values of `MODE` (R32). -/
abbrev Recognised (m : ModeWord) : Prop := modeMin ≤ m.toNat ∧ m.toNat ≤ modeMax

/-! ### Rendering -/

/-- The tier boundaries in quarters of the threshold (R10, R146; `93_implementation_defined.md` U4). -/
def tierQuarters : List Nat := [0, 4, 5, 6, 7, 8]

/-- `TIER_MAX`: the length of a tiered bar (R10, R147). -/
def tierMax : Nat := 6

/-- `EBKT_STEP`: the width 250 of an energy bucket (R10, R148). -/
def bucketStep : Nat := 250

/-- `EBKT_STEP`'s top: the energy 4000 at which DOC0's group of 16 is full (R10, R148). No operation reads it, since the run
saturates at `len`; `bucketCount_top` (Laws/Config.lean) is what R148 says of it. -/
def bucketTop : Nat := 4000

/-- `EBKT_STEP` in Q8 (R148). -/
def bucketWidth : Nat := bucketStep * dataOne

/-- The wash input ceiling 600, in Q8 (R10, R143). -/
def ceil600 : Nat := 600 * dataOne

/-- The wash input ceiling 1500, in Q8 (R10, R143). -/
def ceil1500 : Nat := 1500 * dataOne

/-- The wash output ceiling (R10, R143, R144). -/
def briMax : Nat := 255

/-- The raw-mode input ceiling 500, in Q8 (R10, R150). -/
def rawCeil : Nat := 500 * dataOne

/-- The raw-mode output ceiling: 3 columns of 4 LEDs (R10, R150). -/
def rawLeds : Nat := 3 * 4

/-- What brings the total deviation `D`, which is `N` times a sum over `N` samples, to its Q8 mean: 64 (R150). -/
def rawScale : Nat := blockLen * blockLen / dataOne

/-- Pixels from a raw-mode square's first to the last one `RAWC` may write (R151: footprint `start .. start + 14`). -/
def rawSpan : Nat := 15

/-- 1,000,000 microseconds in Q8: the numerator of the sweep's delay (R153). -/
def sweepNumerator : Nat := 1000000 * dataOne

/-- The pixel groups of R178, in index order, as (first pixel, length). -/
def groups : Topology → List (Nat × Nat)
  | .a => [(0, 16), (16, 12), (28, 16), (44, 16)]
  | .b => [(0, 28), (28, 32)]

/-- FREE VALUE (R90, `93_implementation_defined.md` U11; log 4): the reading number `n` of the sample port,
where the environment's queue of State has none. -/
opaque sampleDraw : Nat → Reading

/-- FREE VALUE (R192, U12; log 5): the reading number `n` of the time base, where the environment's queue of
State has none. -/
opaque timeDraw : Nat → Word

/-- FREE VALUE (R41, U10; log 3): what `RAW[i]` holds after reset number `epoch`. -/
opaque resetRaw : (epoch i : Nat) → RawSample

/-- FREE VALUE (R41, U10; log 3): what `RE[i]` holds after reset number `epoch`. -/
opaque resetRe : (epoch i : Nat) → Word

/-- FREE VALUE (R41, U10; log 3): what `IM[i]` holds after reset number `epoch`. -/
opaque resetIm : (epoch i : Nat) → Word

/-- FREE VALUE (R41, U10; log 3): what `PIX[p]` holds after reset number `epoch`. -/
opaque resetPix : (epoch p : Nat) → Pixel

end Config

end Sys2Proof
end

