-- ==== Sys2Proof/Machine/Rom.lean ====
section
/-! DEFINITION. The read-only memories of HW_007 CORE (`10_state.md` R37): the coefficient tables as the spec prints them
(the tables are normative, the formulas only explain them) and the default contents of the configurable ROMs.
No operation and no host access writes any of them. -/

namespace Sys2Proof.Machine

/-- `WIN[0..127]`, the Hamming window, Q15 (R104). -/
def windowTable : List Coefficient :=
  [2621, 2640, 2695, 2787, 2916, 3080, 3281, 3516] ++
  [3787, 4091, 4429, 4799, 5201, 5633, 6095, 6585] ++
  [7102, 7646, 8214, 8805, 9418, 10051, 10703, 11371] ++
  [12056, 12754, 13464, 14185, 14914, 15650, 16391, 17136] ++
  [17881, 18626, 19369, 20108, 20841, 21566, 22282, 22986] ++
  [23678, 24354, 25015, 25658, 26281, 26883, 27463, 28019] ++
  [28549, 29053, 29529, 29976, 30393, 30780, 31134, 31455] ++
  [31742, 31995, 32213, 32396, 32543, 32653, 32727, 32763] ++
  [32763, 32727, 32653, 32543, 32396, 32213, 31995, 31742] ++
  [31455, 31134, 30780, 30393, 29976, 29529, 29053, 28549] ++
  [28019, 27463, 26883, 26281, 25658, 25015, 24354, 23678] ++
  [22986, 22282, 21566, 20841, 20108, 19369, 18626, 17881] ++
  [17136, 16391, 15650, 14914, 14185, 13464, 12754, 12056] ++
  [11371, 10703, 10051, 9418, 8805, 8214, 7646, 7102] ++
  [6585, 6095, 5633, 5201, 4799, 4429, 4091, 3787] ++
  [3516, 3281, 3080, 2916, 2787, 2695, 2640, 2621]

/-- `TW_RE[0..63]`, Q15 (R110). -/
def twiddleReTable : List Coefficient :=
  [32768, 32729, 32610, 32413, 32138, 31786, 31357, 30853] ++
  [30274, 29622, 28899, 28106, 27246, 26320, 25330, 24279] ++
  [23170, 22006, 20788, 19520, 18205, 16846, 15447, 14010] ++
  [12540, 11039, 9512, 7962, 6393, 4808, 3212, 1608] ++
  [0, -1608, -3212, -4808, -6393, -7962, -9512, -11039] ++
  [-12540, -14010, -15447, -16846, -18205, -19520, -20788, -22006] ++
  [-23170, -24279, -25330, -26320, -27246, -28106, -28899, -29622] ++
  [-30274, -30853, -31357, -31786, -32138, -32413, -32610, -32729]

/-- `TW_IM[0..63]`, Q15 (R110). -/
def twiddleImTable : List Coefficient :=
  [0, -1608, -3212, -4808, -6393, -7962, -9512, -11039] ++
  [-12540, -14010, -15447, -16846, -18205, -19520, -20788, -22006] ++
  [-23170, -24279, -25330, -26320, -27246, -28106, -28899, -29622] ++
  [-30274, -30853, -31357, -31786, -32138, -32413, -32610, -32729] ++
  [-32768, -32729, -32610, -32413, -32138, -31786, -31357, -30853] ++
  [-30274, -29622, -28899, -28106, -27246, -26320, -25330, -24279] ++
  [-23170, -22006, -20788, -19520, -18205, -16846, -15447, -14010] ++
  [-12540, -11039, -9512, -7962, -6393, -4808, -3212, -1608]

/-- `WIN[n]` (R104). -/
def window (n : Nat) : Int := (windowTable.getD n 0).toInt

/-- `TW_RE[k]` (R110). -/
def twiddleRe (k : Nat) : Int := (twiddleReTable.getD k 0).toInt

/-- `TW_IM[k]` (R110). -/
def twiddleIm (k : Nat) : Int := (twiddleImTable.getD k 0).toInt

/-- `IIR_A`, the feedback coefficient, Q15 (R102). -/
def iirA : Coefficient := 22938

/-- `IIR_B`, the input coefficient, Q15 (R102). -/
def iirB : Coefficient := 9830

/-- `KTHR[b]`, the threshold multipliers, Q15 (R131). -/
def kthr (b : Fin 3) : Coefficient := [26214, 39322, 26214].getD b.val 0

/-- `GAIN[b]`, the per-band gains, 8 bits (R37, R122). -/
def gain (b : Fin 3) : BitVec 8 := [150, 100, 150].getD b.val 0

/-- The first bin of each band: the index ranges [0,20), [20,80), [80,128) (R120). -/
def bandLow (b : Fin 3) : Nat := [0, 20, 80].getD b.val 0

/-- The width of each band's index range (R120). -/
def bandWidth (b : Fin 3) : Nat := [20, 60, 48].getD b.val 0

/-- The default `PROG` (R176): the main cycle at 0x00, then the routines of modes 1 to 7. Every address not listed
here holds `erasedWord`. -/
def defaultProgram : List (Nat × Word) :=
  [(0x00, 0x10000000), (0x01, 0x12000000), (0x02, 0x13000000), (0x03, 0x14000000), (0x04, 0x15000000),
    (0x05, 0x16000000), (0x06, 0x17000000), (0x07, 0x18000000), (0x08, 0x19000000), (0x09, 0x1A000000),
    (0x0A, 0x20000000), (0x0B, 0x03000000), (0x0C, 0x26000000), (0x0D, 0x02000000)] ++
  [(0x10, 0x21040000), (0x11, 0x21090006), (0x12, 0x210E000C), (0x13, 0x04000000)] ++
  [(0x18, 0x251C0C10), (0x19, 0x04000000)] ++
  [(0x20, 0x22081000), (0x21, 0x04000000)] ++
  [(0x28, 0x230C1C00), (0x29, 0x04000000)] ++
  [(0x30, 0x2404001C), (0x31, 0x04000000)] ++
  [(0x38, 0x11000000), (0x39, 0x12000000), (0x3A, 0x13000000), (0x3B, 0x14000000), (0x3C, 0x15000000),
    (0x3D, 0x16000000), (0x3E, 0x17800000), (0x3F, 0x18800000), (0x40, 0x19800000), (0x41, 0x21040000),
    (0x42, 0x21090006), (0x43, 0x210E000C), (0x44, 0x21C4003B), (0x45, 0x21C90035)] ++
  [(0x46, 0x21CE002F), (0x47, 0x04000000)] ++
  [(0x50, 0x233C3C00), (0x51, 0x04000000)]

/-- What an address of `PROG` that R176 does not list holds. -/
def erasedWord : Word := 0xFFFFFFFF

/-- The default `VEC[1..7]` (R177), `VEC[m]` at position `m - 1`. -/
def defaultVec : Vector ProgAddr 7 := #v[0x10, 0x18, 0x20, 0x28, 0x30, 0x38, 0x50]

/-- The default `CLUT[0..7]`: the table of R142. DESIGN CHOICE (log 20): R142's sentence that red, green and blue are bits 0, 1
and 2 of `color` contradicts its own table for colours 3 to 6, and the model follows the table. -/
def defaultClut : Vector Pixel 8 :=
  #v[0x000000, 0xFF0000, 0x00FF00, 0x0000FF, 0xFFFF00, 0x00FFFF, 0xFF00FF, 0xFFFFFF]

/-- The default `COLIDX[0..11]` (R152). -/
def defaultColIdx : Vector (Fin 15) 12 := #v[0, 4, 8, 12, 1, 5, 9, 13, 2, 6, 10, 14]

end Sys2Proof.Machine
end

