-- ==== Sys2Proof/Machine/State.lean ====
section
/-! DEFINITION. The architectural state of HW_007 CORE (`10_state.md`), as plain data, with the configuration of
the instance and the environment's side of the ports; the reset state; the reasons a step can stop. -/

namespace Sys2Proof.Machine

/-- `RUN` (R29). Value 3 of the 2-bit register is never produced and has no constructor (U18, log 8). -/
inductive RunState where
  | running
  | halted
  | faulted
deriving DecidableEq, Repr

/-- `CAUSE` (R29, R185). Codes 4 to 15 of the 4-bit register are never produced and have no constructor (log 8). -/
inductive Cause where
  /-- 0: no fault since reset. -/
  | none
  /-- 1: `ILLEGAL_OP`. -/
  | illegalOp
  /-- 2: `PIXEL_RANGE`. -/
  | pixelRange
  /-- 3: `LINK`. -/
  | link
deriving DecidableEq, Repr

/-- The recognised values of `MODE` (R32): what `MODE_RESET` may be (`93_implementation_defined.md` U25). -/
abbrev RecognisedMode := { m : ModeWord // Config.Recognised m }

/-- A memory of words in sparse form: (word address, word) pairs. The one such memory is the program ROM; `Memory.wf`
(Ops.lean) is its canonical form: addresses strictly rising, no entry equal to what an unlisted address reads as. -/
abbrev Memory := List (Nat × Word)

/-- The configuration of an instance, fixed before reset and written by no step (R37, U23 to U25; log 10). -/
structure Instance where
  /-- `PROG[0..255]` (R37); an address not listed holds the default program's word (R176; logs 1 and 2). -/
  prog : Memory
  /-- `VEC[1..7]` (R37, R177): `VEC[m]` at position `m - 1`. -/
  vec : Vector ProgAddr 7
  /-- `CLUT[0..7]` (R142). -/
  clut : Vector Pixel 8
  /-- `COLIDX[0..11]` (R152); an entry above 14 is refused (U23), here by its type. -/
  colIdx : Vector (Fin 15) 12
  /-- `MODE_RESET` (R10); a value outside 1 to 7 is refused (U25), here by its type. -/
  modeReset : RecognisedMode
  /-- `TOPOLOGY` (R4); no operation reads it (R178). -/
  topology : Topology
deriving DecidableEq, Repr

/-- The default configuration: R176, R177, R142, R152, `MODE_RESET = 1`, `TOPOLOGY = A` (R10). -/
def Instance.default : Instance where
  prog := []
  vec := defaultVec
  clut := defaultClut
  colIdx := defaultColIdx
  modeReset := ⟨1, by decide⟩
  topology := .a

/-- The state of the machine: every register and array of `10_state.md`, then the configuration, then the model's own
fields for the environment (INVENTORY.md, State). -/
structure State where
  /-- `PC` (R26). -/
  pc : ProgAddr
  /-- `LR` (R28). -/
  lr : ProgAddr
  /-- `LRV` (R28). -/
  lrv : Bool
  /-- `RUN` (R29). -/
  run : RunState
  /-- `CAUSE` (R29). -/
  cause : Cause
  /-- `FAULT_PC` (R29). -/
  faultPc : ProgAddr
  /-- `MODE` (R32). -/
  mode : ModeWord
  /-- `BAND[bank][b]`, unsigned Q8 (R21). -/
  band : Vector (Vector Word 3) 2
  /-- `ENERGY[bank]`, unsigned Q8 (R22). -/
  energy : Vector Word 2
  /-- `AVG[b]`, unsigned Q8 (R23). -/
  avg : Vector Word 3
  /-- `COUNT` (R24). -/
  count : BitVec 6
  /-- `SWEEP_POS` (R25). -/
  sweepPos : BitVec 6
  /-- `SWEEP_T0` (R25). -/
  sweepT0 : Word
  /-- `RAW[0..127]` (R34). -/
  raw : Vector RawSample 128
  /-- `RE[0..127]`, signed Q8 (R35). -/
  re : Vector Word 128
  /-- `IM[0..127]`, signed Q8 (R35). -/
  im : Vector Word 128
  /-- `PIX[0..59]` (R36). -/
  pix : Vector Pixel 60
  /-- The configuration ROMs and parameters of the instance (R37, R40). -/
  cfg : Instance
  /-- MODEL's own (log 4): readings the environment has ready for `SampleRead()`, next first. -/
  samples : List Reading
  /-- MODEL's own (log 4): readings consumed so far. -/
  samplesTaken : Nat
  /-- MODEL's own (log 5): readings the environment has ready for `TimeRead()`, next first. -/
  times : List Word
  /-- MODEL's own (log 5): time readings consumed so far. -/
  timesTaken : Nat
  /-- MODEL's own (log 6): the `FrameCommit` events so far, oldest first. -/
  frames : List (Vector Pixel 60)
  /-- MODEL's own (log 3): resets applied so far; it selects the unspecified reset contents. -/
  epoch : Nat
deriving DecidableEq, Repr

/-- Reasons a step stops with a fault: none. The three faults of R185 are described effects on `RUN`, `CAUSE` and
`FAULT_PC`, so raising one is a next state (R184; log 12), and no other fault exists (R185). The type is closed and
empty: nobody raises one; safe. -/
inductive Fault where
deriving DecidableEq, Repr

/-- Reasons a step is refused. -/
inductive Refusal where
  /-- Raised by an arm of `exec` for an operation without a meaning; no arm does so. Safe. -/
  | notModelled (mnemonic : String)
deriving DecidableEq, Repr

/-- What a step answers. -/
abbrev Result := Host.Outcome State Fault Refusal

/-- The state after reset number `epoch` of an instance (R41, R201): every register at the value the table gives; the
arrays unspecified, so free values (U10, log 3); the environment's queues empty (logs 4 to 6). -/
def State.resetOf (cfg : Instance) (epoch : Nat) : State where
  pc := 0
  lr := 0
  lrv := false
  run := .running
  cause := .none
  faultPc := 0
  mode := cfg.modeReset.val
  band := Vector.replicate 2 (Vector.replicate 3 0)
  energy := Vector.replicate 2 0
  avg := Vector.replicate 3 0
  count := 0
  sweepPos := 0
  sweepT0 := 0
  raw := Vector.ofFn fun i => Config.resetRaw epoch i.val
  re := Vector.ofFn fun i => Config.resetRe epoch i.val
  im := Vector.ofFn fun i => Config.resetIm epoch i.val
  pix := Vector.ofFn fun p => Config.resetPix epoch p.val
  cfg := cfg
  samples := []
  samplesTaken := 0
  times := []
  timesTaken := 0
  frames := []
  epoch := epoch

/-- The machine right after its first reset, in the default configuration (R41, R201, R203). -/
def State.reset : State := State.resetOf Instance.default 0

end Sys2Proof.Machine
end

