-- ==== Sys2Proof/Machine/Ops.lean ====
section
/-! DEFINITION. The named operations every meaning is written over: the arithmetic of `00_scope.md` R11 to R14, the
counted loop, array access, the program ROM, the ports, and TAKING A FAULT (`60_exceptions.md` R184). There is no
return from a fault (R188). -/

namespace Sys2Proof.Machine

/-! ### Arithmetic (R11, R13, R14) -/

/-- `wrap_s32(v)`: the word a signed array element takes (R13). -/
def wrapS32 (v : Int) : Word := BitVec.ofInt 32 v

/-- `wrap_u32(v)`: the word an unsigned register takes (R13). -/
def wrapU32 (v : Int) : Word := BitVec.ofInt 32 v

/-- `round_q15(v) = (v + 16384) >> 15`: to nearest, a tie toward plus infinity (R14). `roundQ15_eq` (Laws/Config.lean) has the
numbers. -/
def roundQ15 (v : Int) : Int := (v + (Config.coeffOne / 2 : Nat)) / Config.coeffOne

/-- The digits of `isqrt`: from a root `r` of which `k` low binary digits are still 0, set each digit that keeps the
square at most `n`, from the highest down. -/
def isqrtDigits (n : Nat) : (k r : Nat) → Nat
  | 0, r => r
  | k + 1, r => if (r + 2 ^ k) * (r + 2 ^ k) ≤ n then isqrtDigits n k (r + 2 ^ k) else isqrtDigits n k r

/-- `isqrt(n)`: the greatest `m` with `m * m <= n` (R11). -/
def isqrt (n : Nat) : Nat := isqrtDigits n (n.log2 / 2 + 1) 0

/-! ### Loops and arrays (R15, R17 (f)) -/

/-- `for i in 0 .. n - 1, ascending: a <- f i a`. -/
def forUp {α : Type} (n : Nat) (f : Nat → α → α) (a : α) : α :=
  match n with
  | 0 => a
  | k + 1 => f k (forUp k f a)

/-- `sum(i in 0 .. n - 1) f(i)`, exact (R11). -/
def sumUp (n : Nat) (f : Nat → Int) : Int := forUp n (fun i acc => acc + f i) 0

/-- The list `f(lo), f(lo + 1), ...` of length `n`. -/
def listFrom {α : Type} (f : Nat → α) (lo : Nat) : Nat → List α
  | 0 => []
  | n + 1 => f lo :: listFrom f (lo + 1) n

/-- The length of `listFrom`, which `tabulate` rests on. -/
theorem length_listFrom {α : Type} (f : Nat → α) (lo n : Nat) : (listFrom f lo n).length = n := by
  induction n generalizing lo with
  | zero => rfl
  | succ n ih => simp [listFrom, ih]

/-- `for i in 0 .. n - 1: A[i] <- f(i)`, for a loop whose turns do not depend on one another. -/
def tabulate {α : Type} (n : Nat) (f : Nat → α) : Vector α n := ⟨⟨listFrom f 0 n⟩, length_listFrom f 0 n⟩

/-- `RE[i]` or `IM[i]` read as the signed word it is (R35). No stage operation's index leaves 0 to 127 (R53). -/
def signedAt (v : Vector Word 128) (i : Nat) : Int := ((v[i]?).getD 0).toInt

/-- `RAW[i]` as a number (R34). -/
def rawAt (v : Vector RawSample 128) (i : Nat) : Nat := ((v[i]?).getD 0).toNat

/-- `BAND[bank][b]` as a number (R21). -/
def bandAt (s : State) (bank : Bank) (b : Fin 3) : Nat := (s.band[bank])[b].toNat

/-- `PIX[at 0], ..., PIX[at (n - 1)] <- c`, in this order: whole words, no blending (R140). -/
def paint (pix : Vector Pixel 60) (at_ : Nat → Nat) (n : Nat) (c : Pixel) : Vector Pixel 60 :=
  forUp n (fun i p => p.setIfInBounds (at_ i) c) pix

/-! ### The program ROM (R37, R64) -/

/-- The word of the first entry for address `a`, if there is one. -/
def Memory.lookup : Memory → Nat → Option Word
  | [], _ => none
  | (k, w) :: t, a => if k = a then some w else Memory.lookup t a

/-- What an address that a program memory does not list reads as: the default `PROG` (R176). -/
def Memory.unlisted (a : Nat) : Word := (Memory.lookup defaultProgram a).getD erasedWord

/-- `PROG[a]` (R70). -/
def Memory.read (m : Memory) (a : Nat) : Word := (Memory.lookup m a).getD (Memory.unlisted a)

/-- Remove the entry of address `a`. -/
def Memory.erase : Memory → Nat → Memory
  | [], _ => []
  | (k, w) :: t, a => if k = a then t else (k, w) :: Memory.erase t a

/-- Put the entry `(a, w)` in its place among rising addresses. -/
def Memory.insert : Memory → Nat → Word → Memory
  | [], a, w => [(a, w)]
  | (k, v) :: t, a, w =>
    if a < k then (a, w) :: (k, v) :: t
    else if a = k then (a, w) :: t
    else (k, v) :: Memory.insert t a w

/-- Configure `PROG[a]` to hold `w`, keeping the canonical form. No operation and no host access does this (R64). -/
def Memory.write (m : Memory) (a : Nat) (w : Word) : Memory :=
  if w = Memory.unlisted a then Memory.erase m a else Memory.insert m a w

/-- The canonical form: addresses strictly rising and below `PROG_WORDS`, no entry equal to what its address reads as unlisted. -/
def Memory.wf : Memory → Bool
  | [] => true
  | (k, w) :: t => k < Config.progWords && w != Memory.unlisted k && t.all (fun c => k < c.1) && Memory.wf t

/-- The fetch: `w <- PROG[PC]`, one 32-bit word, no side effect (R165). -/
def fetch (s : State) : Word := Memory.read s.cfg.prog s.pc.toNat

/-! ### The ports (R15, R193) -/

/-- What the `i`-th `SampleRead()` from now returns: the environment's next readings, and after them free values
(R90, U11; log 4). -/
def sampleReading (s : State) (i : Nat) : Reading := (s.samples[i]?).getD (Config.sampleDraw (s.samplesTaken + i))

/-- `n` calls of `SampleRead()` have been made: each consumes one reading (R90). -/
def consumeSamples (n : Nat) (s : State) : State :=
  { s with samples := s.samples.drop n, samplesTaken := s.samplesTaken + n }

/-- What the next `TimeRead()` returns (R192, U12; log 5). -/
def timeReading (s : State) : Word := (s.times[0]?).getD (Config.timeDraw s.timesTaken)

/-- One call of `TimeRead()` has been made. -/
def consumeTime (s : State) : State :=
  { s with times := s.times.drop 1, timesTaken := s.timesTaken + 1 }

/-- `FrameCommit((PIX[0], ..., PIX[59]))`: one output event (R51, R158; log 6). -/
def frameCommit (s : State) : State := { s with frames := s.frames ++ [s.pix] }

/-! ### Ending an operation -/

/-- `pc <- wrap_u8(PC + 1)` (R13, R27). -/
def advance (s : State) : State := { s with pc := s.pc + 1 }

/-- An operation that ends with `pc <- wrap_u8(PC + 1)` (R15, R27). -/
def finish (s : State) : Result := .next (advance s)

/-- TAKING A FAULT (R184, R187): `RUN <- FAULTED`, `CAUSE <- code`, `FAULT_PC <- PC`, and nothing else. -/
def raise (c : Cause) (s : State) : State := { s with run := .faulted, cause := c, faultPc := s.pc }

end Sys2Proof.Machine
end

