-- ==== Sys2Proof/Machine/Acquire.lean ====
section
/-! DEFINITION. Sample acquisition: `ACQ`, `RELOAD` (`40_acquire.md` R91, R92). -/

namespace Sys2Proof.Machine

/-- The stored value of a reading: itself when it is in 0 to 4095, else the previous stored value (R91, R181). -/
def substitute (prev : RawSample) (r : Reading) : RawSample :=
  if r.toInt < Config.adcMin ∨ Config.adcMax < r.toInt then prev else BitVec.ofInt 12 r.toInt

/-- The values `ACQ` stores at indices `i, i + 1, ...` (`n` of them), where `prev` is what it stored last: its loop,
ascending, one reading an index (R91). `prev` does not survive the operation (R39). -/
def storedFrom (s : State) (prev : RawSample) (i : Nat) : Nat → List RawSample
  | 0 => []
  | n + 1 =>
    let v := substitute prev (sampleReading s i)
    v :: storedFrom s v (i + 1) n

/-- There are as many stored values as turns of the loop. -/
theorem length_storedFrom (s : State) (prev : RawSample) (i n : Nat) : (storedFrom s prev i n).length = n := by
  induction n generalizing prev i with
  | zero => rfl
  | succ n ih => simp [storedFrom, ih]

/-- The block `ACQ` stores in `RAW`: the first sample's substitute is 2048 (R91). -/
def acquiredBlock (s : State) : Vector RawSample 128 :=
  ⟨⟨storedFrom s Config.adcMid 0 Config.blockLen⟩, length_storedFrom s Config.adcMid 0 Config.blockLen⟩

/-- `RE[i] <- RAW[i] << 8` for a whole block: samples enter the working array in Q8 (R91, R92). -/
def q8Block (raw : Vector RawSample 128) : Vector Word 128 := 
  tabulate Config.blockLen fun i => wrapS32 (rawAt raw i * Config.dataOne)

/-- `IM[i] <- 0` for a whole block (R91, R92). -/
def zeroBlock : Vector Word 128 := tabulate Config.blockLen fun _ => 0

/-- `ACQ` (R91): exactly 128 readings, whatever they are. -/
def execAcq (s : State) : Result :=
  let raw := acquiredBlock s
  finish { consumeSamples Config.blockLen s with raw := raw, re := q8Block raw, im := zeroBlock }

/-- `RELOAD` (R92): `RE[i] <- RAW[i] << 8`, `IM[i] <- 0`; no reading is consumed. -/
def execReload (s : State) : Result := finish { s with re := q8Block s.raw, im := zeroBlock }

end Sys2Proof.Machine
end

