-- ==== Sys2Proof/Machine/AnalyzerTime.lean ====
section
/-! DEFINITION. The time-domain analyzer stages: `DCR`, `IIR`, `WIN` (`41_analyzer_time.md` R100, R101, R103). Each works in
place on `RE` and touches nothing else but `PC`. -/

namespace Sys2Proof.Machine

/-- The block mean `floor(S / 128)` (R100). -/
def blockMean (re : Vector Word 128) : Int := sumUp Config.blockLen (signedAt re) / (Config.blockLen : Int)

/-- `DCR`'s loop (R100). -/
def removeMean (re : Vector Word 128) : Vector Word 128 :=
  let mean := blockMean re
  tabulate Config.blockLen fun i => wrapS32 (signedAt re i - mean)

/-- The next output from the last one and the next input: two exact products, one rounding (R101). -/
def iirNext (y x : Word) : Word := wrapS32 (roundQ15 (iirA.toInt * y.toInt + iirB.toInt * x.toInt))

/-- The outputs that follow `y` over the inputs that are left: `IIR`'s loop, ascending (R101). -/
def iirFrom (y : Word) : List Word → List Word
  | [] => []
  | x :: rest => iirNext y x :: iirFrom (iirNext y x) rest

/-- The outputs of a whole block: `y[0] = x[0]`, then the loop (R101). No state is kept across blocks. -/
def iirList : List Word → List Word
  | [] => []
  | x :: rest => x :: iirFrom x rest

/-- The filter keeps the number of elements. -/
theorem length_iirFrom (y : Word) (xs : List Word) : (iirFrom y xs).length = xs.length := by
  induction xs generalizing y with
  | nil => rfl
  | cons x rest ih => simp [iirFrom, ih]

/-- The filter keeps the block's length. -/
theorem length_iirList (xs : List Word) : (iirList xs).length = xs.length := by
  cases xs <;> simp [iirList, length_iirFrom]

/-- `IIR` on the whole of `RE` (R101). -/
def smoothBlock (re : Vector Word 128) : Vector Word 128 :=
  ⟨⟨iirList re.toList⟩, by simp [length_iirList]⟩

/-- `WIN`'s loop (R103). -/
def windowBlock (re : Vector Word 128) : Vector Word 128 :=
  tabulate Config.blockLen fun i => wrapS32 (roundQ15 (signedAt re i * window i))

/-- `DCR` (R100). -/
def execDcr (s : State) : Result := finish { s with re := removeMean s.re }

/-- `IIR` (R101). -/
def execIir (s : State) : Result := finish { s with re := smoothBlock s.re }

/-- `WIN` (R103). -/
def execWin (s : State) : Result := finish { s with re := windowBlock s.re }

end Sys2Proof.Machine
end

