-- ==== Sys2Proof/Machine/Bands.lean ====
section
/-! DEFINITION. The band-energy aggregator, the energy estimator and the band normaliser: `BAND`, `NRG`, `NORM`
(`43_bands_energy.md` R120 to R122). -/

namespace Sys2Proof.Machine

/-- The mean of band `b`: the exact sum over its index range, floor-divided by its width (R120). `RE` is read signed. -/
def bandMean (re : Vector Word 128) (b : Fin 3) : Int :=
  sumUp (bandWidth b) (fun i => signedAt re (bandLow b + i)) / (bandWidth b : Int)

/-- `Q`: the exact sum of the squares of the 128 magnitudes (R121). -/
def squareSum (re : Vector Word 128) : Int := sumUp Config.blockLen fun k => signedAt re k * signedAt re k

/-- `isqrt(Q div 128)` (R121). -/
def rms (re : Vector Word 128) : Nat := isqrt (squareSum re / (Config.blockLen : Int)).toNat

/-- The normalised amplitude `(A * GAIN[b] * 256) div E`, for `E != 0` (R122). -/
def normalised (a : Nat) (b : Fin 3) (e : Nat) : Nat := a * (gain b).toNat * Config.dataOne / e

/-- `BAND bank` (R120). -/
def execBand (bank : Bank) (s : State) : Result :=
  finish { s with band := s.band.set bank (Vector.ofFn fun b => wrapU32 (bandMean s.re b)) }

/-- `NRG bank` (R121). -/
def execNrg (bank : Bank) (s : State) : Result :=
  finish { s with energy := s.energy.set bank (wrapU32 (rms s.re)) }

/-- `NORM bank` (R122, R182): with `ENERGY[bank] = 0` the means are left unchanged. -/
def execNorm (bank : Bank) (s : State) : Result :=
  if s.energy[bank] = 0 then finish s
  else finish { s with
    band := s.band.set bank
      (Vector.ofFn fun b => wrapU32 (normalised (bandAt s bank b) b s.energy[bank].toNat)) }

end Sys2Proof.Machine
end

