-- ==== Sys2Proof/Machine/Control.lean ====
section
/-! DEFINITION. The control operations: `NOP`, `HALT`, `ENDC`, `DISPATCH`, `RET` (`46_control.md` R160 to R164). -/

namespace Sys2Proof.Machine

/-- `NOP` (R160). -/
def execNop (s : State) : Result := finish s

/-- `HALT` (R161): `PC` keeps the address of the `HALT` word. -/
def execHalt (s : State) : Result := .next { s with run := .halted }

/-- `ENDC` (R162): `pc <- 0`; `LR` and `LRV` are not touched. -/
def execEndc (s : State) : Result := .next { s with pc := 0 }

/-- `DISPATCH` (R163): one read of `MODE`; a recognised mode calls its routine through `VEC`, any other value falls
through. `LINK` when a routine is already open. -/
def execDispatch (s : State) : Result :=
  if s.lrv then .next (raise .link s)
  else if h : Config.Recognised s.mode then
    .next { s with lr := s.pc + 1, lrv := true, pc := s.cfg.vec[s.mode.toNat - Config.modeMin]'(Nat.lt_of_le_of_lt (Nat.sub_le_sub_right h.2 _) (by decide)) }
  else finish s

/-- `RET` (R164): `LR` keeps its value. `LINK` when no routine is open. -/
def execRet (s : State) : Result :=
  if s.lrv then .next { s with pc := s.lr, lrv := false } else .next (raise .link s)

end Sys2Proof.Machine
end

