-- ==== Sys2Proof/Machine/Fft.lean ====
section
/-! DEFINITION. The FFT engine and the magnitude extractor: `FFT`, `MAG` (`42_fft.md` R111 to R114). -/

namespace Sys2Proof.Machine

/-- `bitrev7(i)`: the 7-bit form of `i` read backwards (R111). -/
def bitrev7 (i : Nat) : Nat := 
  forUp Config.logLen (fun b acc => acc + i / 2 ^ b % 2 * 2 ^ (Config.logLen - 1 - b)) 0

/-- The paired arrays of the transform. -/
structure Spectrum where
  re : Vector Word 128
  im : Vector Word 128
deriving DecidableEq, Repr

/-- Step 1 of `FFT`: element `i` goes to index `bitrev7(i)`. Since `bitrev7` is its own inverse (R111), index `k`
receives element `bitrev7(k)` (R112). -/
def bitReverse (v : Vector Word 128) : Vector Word 128 := tabulate Config.blockLen fun k => (v[bitrev7 k]?).getD 0

/-- One butterfly: its pair of indices and its twiddle index (R112). -/
structure Butterfly where
  p : Nat
  q : Nat
  k : Nat
deriving DecidableEq, Repr

/-- The real part of the butterfly's product `v = x[q] * W^k`, rounded once (R113). -/
def productRe (x : Spectrum) (b : Butterfly) : Int :=
  roundQ15 (signedAt x.re b.q * twiddleRe b.k - signedAt x.im b.q * twiddleIm b.k)

/-- The imaginary part of the butterfly's product, rounded once (R113). -/
def productIm (x : Spectrum) (b : Butterfly) : Int :=
  roundQ15 (signedAt x.re b.q * twiddleIm b.k + signedAt x.im b.q * twiddleRe b.k)

/-- The butterfly of stage `t` that holds index `i`: `base` is the start of its group of `2^t`, `j` its place in the
group's half (R112). -/
def butterflyAt (t i : Nat) : Butterfly :=
  let base := i / 2 ^ t * 2 ^ t
  let j := i % 2 ^ (t - 1)
  { p := base + j, q := base + j + 2 ^ (t - 1), k := j * (Config.blockLen / 2 ^ t) }

/-- A stage, all its butterflies at once: `x[p] <- u + v`, `x[q] <- u - v`. Within one stage they touch disjoint pairs,
so their order does not change the result (R112). -/
def fftStage (t : Nat) (x : Spectrum) : Spectrum where
  re := tabulate Config.blockLen fun i =>
    let b := butterflyAt t i
    if i = b.p then wrapS32 (signedAt x.re b.p + productRe x b) else wrapS32 (signedAt x.re b.p - productRe x b)
  im := tabulate Config.blockLen fun i =>
    let b := butterflyAt t i
    if i = b.p then wrapS32 (signedAt x.im b.p + productIm x b) else wrapS32 (signedAt x.im b.p - productIm x b)

/-- Step 2 of `FFT`: the stages 1 to 7 in this order (R112). -/
def fftStages (x : Spectrum) : Spectrum := forUp Config.logLen (fun i => fftStage (i + 1)) x

/-- The transform: bit reversal, then the seven stages (R112). -/
def fftBlock (x : Spectrum) : Spectrum := fftStages ⟨bitReverse x.re, bitReverse x.im⟩

/-- The magnitude of one coefficient: the floor of the root of the exact sum of squares (R114). -/
def magnitude (re im : Int) : Nat := isqrt (re * re + im * im).toNat

/-- `FFT` (R112). -/
def execFft (s : State) : Result :=
  let x := fftBlock ⟨s.re, s.im⟩
  finish { s with re := x.re, im := x.im }

/-- `MAG` (R114): `IM` is left as it is. -/
def execMag (s : State) : Result :=
  finish { s with re := tabulate Config.blockLen fun k => wrapS32 (magnitude (signedAt s.re k) (signedAt s.im k)) }

/-! ### The pseudocode's own loop, for the statement that the stages above are it (R112) -/

/-- The butterflies of stage `t` (1 to 7), in the pseudocode's order: by group, then by `j` (R112). -/
def stageButterflies (t : Nat) : List Butterfly :=
  (List.range (Config.blockLen / 2 ^ t)).flatMap fun g =>
    (List.range (2 ^ (t - 1))).map fun j =>
      { p := g * 2 ^ t + j, q := g * 2 ^ t + j + 2 ^ (t - 1), k := j * (Config.blockLen / 2 ^ t) }

/-- One butterfly in place, as the pseudocode writes it (R112). -/
def butterflyInPlace (x : Spectrum) (b : Butterfly) : Spectrum :=
  let vr := productRe x b
  let vi := productIm x b
  let ur := signedAt x.re b.p
  let ui := signedAt x.im b.p
  { re := (x.re.setIfInBounds b.p (wrapS32 (ur + vr))).setIfInBounds b.q (wrapS32 (ur - vr))
    im := (x.im.setIfInBounds b.p (wrapS32 (ui + vi))).setIfInBounds b.q (wrapS32 (ui - vi)) }

end Sys2Proof.Machine
end

