-- ==== Sys2Proof/Machine/Operands.lean ====
section
/-! DEFINITION. What the operand fields of a render operation name: segments and their footprints, colours, bands,
ceilings (`30_encoding.md` R71, R73; `45_render.md` R140 to R142). -/

namespace Sys2Proof.Machine

/-- The number of a band (R16). -/
def bandIx : Band → Fin 3
  | .bass => 0
  | .mid => 1
  | .treble => 2

/-- The input ceiling a `ceil` field selects, in Q8 (R73, R143). -/
def ceilValue : Ceil → Nat
  | .c600 => Config.ceil600
  | .c1500 => Config.ceil1500

/-- `seg(i)`: the `i`-th pixel of a segment (R140). -/
def seg (dir : Dir) (start : BitVec 6) (i : Nat) : Nat :=
  match dir with
  | .up => start.toNat + i
  | .down => start.toNat - i

/-- The footprint `seg(0) .. seg(n - 1)`, `n >= 1`, lies inside 0 to 59 (R140, R185). Downward, the first pixel is
checked too (log 18). -/
def segFits (dir : Dir) (start : BitVec 6) (n : Nat) : Bool :=
  match dir with
  | .up => start.toNat + n ≤ Config.numPixels
  | .down => n ≤ start.toNat + 1 && start.toNat < Config.numPixels

/-- `CLUT[color]` (R142). -/
def clutColor (s : State) (color : BitVec 3) : Pixel :=
  s.cfg.clut[color.toNat]'(by have := color.isLt; omega)

/-- `COLIDX[k]` for `k` in 0 to 11 (R152). -/
def columnIndex (s : State) (k : Nat) : Nat := ((s.cfg.colIdx[k]?).getD 0).val

/-- A pixel word from its three channels (R51, R141). -/
def pixelOf (r g b : Nat) : Pixel := BitVec.ofNat 8 r ++ BitVec.ofNat 8 g ++ BitVec.ofNat 8 b

/-- The red channel of a pixel word (R51). -/
def redOf (c : Pixel) : Nat := (c.extractLsb' 16 8).toNat

/-- The green channel of a pixel word (R51). -/
def greenOf (c : Pixel) : Nat := (c.extractLsb' 8 8).toNat

/-- The blue channel of a pixel word (R51). -/
def blueOf (c : Pixel) : Nat := (c.extractLsb' 0 8).toNat

/-- `scale(c, v)`: each channel times `v`, floor-divided by 255 (R144). -/
def scale (c : Pixel) (v : Nat) : Pixel :=
  pixelOf (redOf c * v / Config.briMax) (greenOf c * v / Config.briMax) (blueOf c * v / Config.briMax)

end Sys2Proof.Machine
end

