-- ==== Sys2Proof/Machine/Smoother.lean ====
section
/-! DEFINITION. The moving-average smoother and the thresholds: `SMOOTH`, `thr` (`44_smoother.md` R130, R131). -/

namespace Sys2Proof.Machine

/-- One update of the average: `(avg * c + new) div (c + 1)` (R130). -/
def averaged (avg new c : Nat) : Nat := (avg * c + new) / (c + 1)

/-- `SMOOTH` (R130): the three averages with the count on entry, then the count, which stops at 50. Bank 0 only. -/
def execSmooth (s : State) : Result :=
  let c := s.count.toNat
  finish { s with
    avg := Vector.ofFn fun b => wrapU32 (averaged s.avg[b].toNat (bandAt s 0 b) c)
    count := BitVec.ofNat 6 (min (c + 1) Config.countCap) }

/-- `thr(b) = round_q15(AVG[b] * KTHR[b])`, from the `AVG` of the moment (R131). -/
def thr (s : State) (b : Fin 3) : Int := roundQ15 (s.avg[b].toNat * (kthr b).toInt)

end Sys2Proof.Machine
end

