-- ==== Sys2Proof/Machine/Render.lean ====
section
/-! DEFINITION. The colour mapper and the render operations: `CLEAR`, `TIER`, `EBKT`, `WASH`, `RAWC`, `SWEEP`, `COMMIT`
(`45_render.md` R143 to R158). A footprint is checked from the fields alone, before anything is computed, read from
a port or written (R140, R165). A term with `len = 0` is no operation; its meaning is the fault of an illegal word
(R75; log 13). -/

namespace Sys2Proof.Machine

/-- `(BAND[bank][0] + BAND[bank][1] + BAND[bank][2]) div 3`, exact sum (R143). -/
def totalAmp (s : State) (bank : Bank) : Nat := (bandAt s bank 0 + bandAt s bank 1 + bandAt s bank 2) / 3

/-- Clamp an amplitude to the ceiling `c`, then scale it to 0 to 255 (R143). -/
def brightness (total c : Nat) : Nat := min total c * Config.briMax / c

/-- `bri(bank, ceil)` (R143). -/
def bri (s : State) (bank : Bank) (ceil : Ceil) : Nat := brightness (totalAmp s bank) (ceilValue ceil)

/-- The number of boundaries `q/4 * T` that the amplitude `a` is strictly above (R146). -/
def tiersAbove (a : Nat) (t : Int) : Nat := (Config.tierQuarters.filter fun q => (q : Int) * t < 4 * (a : Int)).length

/-- `tier_n(bank, band)` (R146). -/
def tierCount (s : State) (bank : Bank) (b : Fin 3) : Nat := tiersAbove (bandAt s bank b) (thr s b)

/-- The lit run of an energy bucket bar (R148). -/
def bucketCount (e len : Nat) : Nat := min (e / Config.bucketWidth) len

/-- `S = sum RAW[i]` (R150). -/
def rawSum (raw : Vector RawSample 128) : Int := sumUp Config.blockLen fun i => rawAt raw i

/-- `D = sum abs(128 * RAW[i] - S)`: 128 times the total deviation from the exact mean (R150). -/
def rawDeviation (raw : Vector RawSample 128) : Int :=
  let total := rawSum raw
  sumUp Config.blockLen fun i => |(Config.blockLen : Int) * (rawAt raw i : Int) - total|

/-- `rawc_n` (R150). -/
def rawCount (raw : Vector RawSample 128) : Nat :=
  min (rawDeviation raw / (Config.rawScale : Int)).toNat Config.rawCeil * Config.rawLeds / Config.rawCeil

/-- `delay`: the sweep's delay in microseconds for a non-zero energy (R153). -/
def sweepDelay (e : Nat) : Nat := Config.sweepNumerator / e

/-- The advance of the rotating index (R153, R197): none while the energy is 0. -/
def sweepAdvance (now : Word) (bank : Bank) (len : Nat) (s : State) : State :=
  if s.energy[bank] = 0 then s
  else if sweepDelay s.energy[bank].toNat < (now - s.sweepT0).toNat then
    { s with sweepPos := BitVec.ofNat 6 ((s.sweepPos.toNat + 1) % len), sweepT0 := now }
  else s

/-- `CLEAR` (R145). -/
def execClear (s : State) : Result := finish { s with pix := tabulate Config.numPixels fun _ => 0 }

/-- `TIER bank dir color band start` (R147): the pixels beyond the lit prefix are not written. -/
def execTier (bank : Bank) (dir : Dir) (color : BitVec 3) (band : Band) (start : BitVec 6) (s : State) : Result :=
  if segFits dir start Config.tierMax then
    finish { s with pix := paint s.pix (seg dir start) (tierCount s bank (bandIx band)) (clutColor s color) }
  else .next (raise .pixelRange s)

/-- `EBKT bank dir color len start` (R148). -/
def execEbkt (bank : Bank) (dir : Dir) (color : BitVec 3) (len start : BitVec 6) (s : State) : Result :=
  if len = 0 then .next (raise .illegalOp s)
  else if segFits dir start len.toNat then
    finish { s with
      pix := paint s.pix (seg dir start) (bucketCount s.energy[bank].toNat len.toNat) (clutColor s color) }
  else .next (raise .pixelRange s)

/-- `WASH bank ceil color len start` (R149): every pixel of the segment is written. -/
def execWash (bank : Bank) (ceil : Ceil) (color : BitVec 3) (len start : BitVec 6) (s : State) : Result :=
  if len = 0 then .next (raise .illegalOp s)
  else if segFits .up start len.toNat then
    finish { s with pix := paint s.pix (seg .up start) len.toNat (scale (clutColor s color) (bri s bank ceil)) }
  else .next (raise .pixelRange s)

/-- `RAWC color start` (R151): the footprint is `start .. start + 14`. -/
def execRawc (color : BitVec 3) (start : BitVec 6) (s : State) : Result :=
  if segFits .up start Config.rawSpan then
    finish { s with
      pix := paint s.pix (fun k => start.toNat + columnIndex s k) (rawCount s.raw) (clutColor s color) }
  else .next (raise .pixelRange s)

/-- `SWEEP bank ceil color len start` (R153): one time reading, whether or not the index advances. -/
def execSweep (bank : Bank) (ceil : Ceil) (color : BitVec 3) (len start : BitVec 6) (s : State) : Result :=
  if len = 0 then .next (raise .illegalOp s)
  else if segFits .up start len.toNat then
    let t := sweepAdvance (timeReading s) bank len.toNat (consumeTime s)
    finish { t with
      pix := paint t.pix (fun _ => start.toNat + t.sweepPos.toNat % len.toNat) 1
        (scale (clutColor s color) (bri s bank ceil)) }
  else .next (raise .pixelRange s)

/-- `COMMIT` (R158): one output event; `PIX` keeps its content. -/
def execCommit (s : State) : Result := finish (frameCommit s)

end Sys2Proof.Machine
end

