-- ==== Sys2Proof/Machine/Dispatch.lean ====
section
/-! DEFINITION. One arm per operation: what executing it does (`46_control.md` R165, the last line of the step). -/

namespace Sys2Proof.Machine

def exec (i : Instr) (s : State) : Host.Outcome State Fault Refusal :=
  match i with
  | .nop => Sys2Proof.Machine.execNop s
  | .halt => Sys2Proof.Machine.execHalt s
  | .endc => Sys2Proof.Machine.execEndc s
  | .dispatch => Sys2Proof.Machine.execDispatch s
  | .ret => Sys2Proof.Machine.execRet s
  | .acq => Sys2Proof.Machine.execAcq s
  | .reload => Sys2Proof.Machine.execReload s
  | .dcr => Sys2Proof.Machine.execDcr s
  | .iir => Sys2Proof.Machine.execIir s
  | .win => Sys2Proof.Machine.execWin s
  | .fft => Sys2Proof.Machine.execFft s
  | .mag => Sys2Proof.Machine.execMag s
  | .band bank => Sys2Proof.Machine.execBand bank s
  | .nrg bank => Sys2Proof.Machine.execNrg bank s
  | .norm bank => Sys2Proof.Machine.execNorm bank s
  | .smooth => Sys2Proof.Machine.execSmooth s
  | .clear => Sys2Proof.Machine.execClear s
  | .tier bank dir color band start => Sys2Proof.Machine.execTier bank dir color band start s
  | .ebkt bank dir color len start => Sys2Proof.Machine.execEbkt bank dir color len start s
  | .wash bank ceil color len start => Sys2Proof.Machine.execWash bank ceil color len start s
  | .rawc color start => Sys2Proof.Machine.execRawc color start s
  | .sweep bank ceil color len start => Sys2Proof.Machine.execSweep bank ceil color len start s
  | .commit => Sys2Proof.Machine.execCommit s

end Sys2Proof.Machine
end

