-- ==== Sys2Proof/Machine/Step.lean ====
section
/-! DEFINITION. One step of the sequencer (`46_control.md` R165), and placing an operation where it fetches. -/

namespace Sys2Proof.Machine

/-- One step (R165): `HALTED` and `FAULTED` are absorbing; else fetch, decode, and execute; an illegal word raises
`ILLEGAL_OP`. The pixel-range and link checks of R165 stand first in the meanings that have them (R186). -/
def step (s : State) : Host.Outcome State Fault Refusal :=
  match s.run with
  | .halted | .faulted => .next s
  | .running =>
    match decode (fetch s) with
    | .illegal _ => .next (raise .illegalOp s)
    | .instr i => exec i s

/-- `s` with the operation of bits `w` configured at `PROG[PC]` and the sequencer running, so that the next step
executes it (log 1). -/
def State.withFetchWord (s : State) (nbits w : Nat) : State :=
  { s with
    cfg := { s.cfg with prog := Memory.write s.cfg.prog s.pc.toNat (BitVec.ofNat 32 (w % 2 ^ nbits)) }
    run := .running }

end Sys2Proof.Machine
end

