-- ==== Sys2Proof/Machine/Flags.lean ====
section
/-! DEFINITION. HW_007 CORE has no flags, no condition codes and no predicates: no operation sets or tests one
(`10_state.md` R30), so there is no flag computation to write. What the host sees instead is the `STATUS` view,
assembled here from sequencer registers (R31). -/

namespace Sys2Proof.Machine

/-- The 2-bit code of `RUN` (R29). -/
def runCode : RunState → BitVec 2
  | .running => 0
  | .halted => 1
  | .faulted => 2

/-- The 4-bit code of `CAUSE` (R185). -/
def causeCode : Cause → BitVec 4
  | .none => 0
  | .illegalOp => 1
  | .pixelRange => 2
  | .link => 3

/-- `STATUS` (R31): `LR`, `PC`, `FAULT_PC`, `CAUSE`, a zero bit, `LRV`, `RUN`, most significant first. -/
def statusWord (s : State) : Word :=
  s.lr ++ s.pc ++ s.faultPc ++ causeCode s.cause ++ 0#1 ++ BitVec.ofBool s.lrv ++ runCode s.run

end Sys2Proof.Machine
end

