-- ==== Sys2Proof/Machine/Window.lean ====
section
/-! DEFINITION. The host register window (`20_memory.md` R54 to R58), reset (`70_reset_and_hazards.md` R200) and every event
that can change the state between two operations (R60, R165; log 7). -/

namespace Sys2Proof.Machine

/-- `MemRead(addr, 1)` (R55, R56): the whole map; an address not in it reads 0 (R57). -/
def hostRead (s : State) (addr : WindowAddr) : Word :=
  let a := addr.toNat
  if a = 0x000 then s.mode.setWidth 32
  else if a = 0x001 then statusWord s
  else if a = 0x002 then s.count.setWidth 32
  else if a = 0x003 then s.sweepPos.setWidth 32
  else if a = 0x004 then s.sweepT0
  else if h : 0x008 ≤ a ∧ a < 0x00B then (s.band[0])[a - 0x008]
  else if a = 0x00B then s.energy[0]
  else if h : 0x00C ≤ a ∧ a < 0x00F then (s.band[1])[a - 0x00C]
  else if a = 0x00F then s.energy[1]
  else if h : 0x010 ≤ a ∧ a < 0x013 then s.avg[a - 0x010]
  else if h : 0x013 ≤ a ∧ a < 0x016 then wrapU32 (thr s ⟨a - 0x013, by omega⟩)
  else if h : 0x040 ≤ a ∧ a < 0x07C then (s.pix[a - 0x040]).setWidth 32
  else if h : 0x100 ≤ a ∧ a < 0x180 then s.re[a - 0x100]
  else if h : 0x180 ≤ a ∧ a < 0x200 then s.im[a - 0x180]
  else if h : 0x200 ≤ a ∧ a < 0x280 then (s.raw[a - 0x200]).setWidth 32
  else 0

/-- `MemWrite(addr, 1, v)` (R33, R55): `MODE <- v[7:0]` at address 0, nothing elsewhere. -/
def hostWrite (addr : WindowAddr) (v : Word) (s : State) : State :=
  if addr = 0 then { s with mode := v.setWidth 8 } else s

/-- Reset (R200, R201): the reset state of the same instance, its arrays unspecified anew; the environment's side of
the ports goes on. -/
def resetEvent (s : State) : State :=
  { State.resetOf s.cfg (s.epoch + 1) with
    samples := s.samples, samplesTaken := s.samplesTaken, times := s.times, timesTaken := s.timesTaken
    frames := s.frames }

/-- What can happen between two states of the machine (R60, R165, R193, R200). -/
inductive Event where
  /-- one step of the sequencer -/
  | stepCore
  /-- the host reads a window word -/
  | hostReads (addr : WindowAddr)
  /-- the host writes a window word -/
  | hostWrites (addr : WindowAddr) (v : Word)
  /-- the environment has one more sample reading ready -/
  | sampleReady (r : Reading)
  /-- the environment has one more time reading ready -/
  | timeReady (t : Word)
  /-- reset is applied -/
  | resets
deriving DecidableEq, Repr

/-- The state after an event. A host read has no side effect (R53). -/
def onEvent (e : Event) (s : State) : Result :=
  match e with
  | .stepCore => step s
  | .hostReads _ => .next s
  | .hostWrites addr v => .next (hostWrite addr v s)
  | .sampleReady r => .next { s with samples := s.samples ++ [r] }
  | .timeReady t => .next { s with times := s.times ++ [t] }
  | .resets => .next (resetEvent s)

/-- A frame as the sink splits it by the topology (R178): the groups in index order. -/
def frameGroups (t : Topology) (f : Vector Pixel 60) : List (List Pixel) :=
  (Config.groups t).map fun g => (f.toList.drop g.1).take g.2

/-- Execute operations one after the other, each to its end: what consecutive program words do (R59). -/
def execAll : List Instr → State → Result
  | [], s => .next s
  | i :: rest, s =>
    match exec i s with
    | .next t => execAll rest t
    | .fault r => .fault r
    | .refused r => .refused r

/-- `n` steps of the sequencer with no event between them. -/
def stepTimes : Nat → State → Result
  | 0, s => .next s
  | n + 1, s =>
    match step s with
    | .next t => stepTimes n t
    | .fault r => .fault r
    | .refused r => .refused r

end Sys2Proof.Machine
end

