-- ==== Sys2Proof/Safety.lean ====
section
/-! DEFINITION. What counts as a safe state, in the terms the statements use. -/

namespace Sys2Proof.Machine

/-- The sequencer has not taken a fault (R29). -/
def State.Healthy (s : State) : Prop := s.run ≠ .faulted

/-- What holds of every state reachable from reset: the smoother's count is at most 50 (R24, R132 (a)); a cause and a
fault address are recorded exactly by a fault (R29, R185); the sweep index is one that an advance can leave, `mod len`
with `len <= 63` (R153); the program ROM keeps its canonical form. -/
def State.Inv (s : State) : Prop :=
  s.count.toNat ≤ Config.countCap ∧
  (s.cause = .none ↔ s.run ≠ .faulted) ∧
  (s.run ≠ .faulted → s.faultPc = 0) ∧
  s.sweepPos.toNat ≤ 62 ∧
  Memory.wf s.cfg.prog = true

/-- The first `n` pixel indices of a segment, as exact integers: nothing is cut off at either end (R140). -/
def segIndices (dir : Dir) (start : BitVec 6) (n : Nat) : List Int :=
  (List.range n).map fun i => match dir with
    | .up => (start.toNat : Int) + i
    | .down => (start.toNat : Int) - i

/-- The indices an operation could write, from its fields alone (R140, R147 to R153); none for the others. -/
def footprint : Instr → List Int
  | .tier _ dir _ _ start => segIndices dir start 6
  | .ebkt _ dir _ len start => segIndices dir start len.toNat
  | .wash _ _ _ len start => segIndices .up start len.toNat
  | .rawc _ start => segIndices .up start 15
  | .sweep _ _ _ len start => segIndices .up start len.toNat
  | .nop | .halt | .endc | .dispatch | .ret => []
  | .acq | .reload | .dcr | .iir | .win | .fft | .mag => []
  | .band _ | .nrg _ | .norm _ | .smooth | .clear | .commit => []

/-- Some index of the footprint is below 0 or above 59 (R185). -/
def leavesPixels (i : Instr) : Prop := ∃ p ∈ footprint i, p < 0 ∨ 59 < p

/-- The default program's steps in a cycle, by the mode read (R175). -/
def cycleSteps (mode : BitVec 8) : Nat :=
  if mode.toNat = 1 then 18
  else if mode.toNat = 6 then 30
  else if 2 ≤ mode.toNat ∧ mode.toNat ≤ 7 then 16
  else 14

/-- The configuration ROMs hold the default program and vectors (R176, R177). -/
def State.HasDefaultProgram (s : State) : Prop := s.cfg.prog = [] ∧ s.cfg.vec = defaultVec

/-- `pc` is one of the words of the default main cycle (R176). -/
def inMainCycle (pc : ProgAddr) : Bool := pc.toNat ≤ 0x0D

/-- `pc` is one of the words of the default mode routines (R176, R177). -/
def inRoutine (pc : ProgAddr) : Bool :=
  let a := pc.toNat
  (0x10 ≤ a && a ≤ 0x13) || (0x18 ≤ a && a ≤ 0x19) || (0x20 ≤ a && a ≤ 0x21) || (0x28 ≤ a && a ≤ 0x29) ||
  (0x30 ≤ a && a ≤ 0x31) || (0x38 ≤ a && a ≤ 0x47) || (0x50 ≤ a && a ≤ 0x51)

/-- Where the default program's control can be (R175): running, in the main cycle with no link open, or in a routine
with the link to `COMMIT` open. -/
def State.OnDefaultPath (s : State) : Prop :=
  s.HasDefaultProgram ∧ s.run = .running ∧
  ((inMainCycle s.pc = true ∧ s.lrv = false) ∨ (inRoutine s.pc = true ∧ s.lrv = true ∧ s.lr = 0x0C))

end Sys2Proof.Machine
end

