-- ==== Sys2Proof/Certificates/Slice0/Obligations.lean ====
section
/-! DEFINITION. The statements for the provers, in the order of OBLIGATIONS.json. A next state is written as the old
state with the fields the rule writes, so each equation is the result, the frame and the completion at once. -/

section

open Sys2Proof Sys2Proof.Machine

/-! ### Encoding and decoding -/

/-- Decoding the word of a well-formed operation gives that operation, with every operand (R71, R72, R74). -/
def Obligations.DecodeEncodeRoundTrip : Prop :=
  ∀ i : Instr, wellFormed i = true → decode (encode i) = .instr i

/-- A word that decodes is the word of the operation it decodes to, and that operation is well formed: no two words share
an operation and no bit of an accepted word is ignored (R72, R75). -/
def Obligations.DecodedWordIsItsEncoding : Prop :=
  ∀ (w : Word) (i : Instr), decode w = .instr i → encode i = w ∧ wellFormed i = true

/-- R74: a word is an operation exactly when it meets that operation's row (match, mask, constraint); rows are told
apart by their mnemonic. -/
def Obligations.OpcodeMapDecidesOperation : Prop :=
  ∀ (w : Word) (j : Instr),
    (opcodeRow j).admits w = true ↔ ∃ i, decode w = .instr i ∧ (opcodeRow i).mnemonic = (opcodeRow j).mnemonic

/-- Words of the default program as R176 prints them decode to the operations printed beside them. -/
def Obligations.SampleWordsDecode : Prop :=
  decode 0x10000000 = .instr .acq ∧ decode 0x03000000 = .instr .dispatch ∧
  decode 0x17800000 = .instr (.band 1) ∧ decode 0x1A000000 = .instr .smooth ∧
  decode 0x210E000C = .instr (.tier 0 .up 3 .treble 12) ∧ decode 0x21C90035 = .instr (.tier 1 .down 2 .mid 53) ∧
  decode 0x22081000 = .instr (.ebkt 0 .up 2 16 0) ∧ decode 0x233C3C00 = .instr (.wash 0 .c1500 7 60 0) ∧
  decode 0x2404001C = .instr (.rawc 1 28) ∧ decode 0x251C0C10 = .instr (.sweep 0 .c600 7 12 16) ∧
  decode 0x26000000 = .instr .commit

/-- R75, R76: every word is one of the 23 operations or illegal; an illegal word raises `ILLEGAL_OP` and changes no other
state; the erased word is illegal and the all-zero word is `NOP`. -/
def Obligations.IllegalWordRaisesIllegalOp : Prop :=
  (∀ w : Word, (∃ why, decode w = .illegal why) ↔ ∀ j : Instr, (opcodeRow j).admits w = false) ∧
  (∀ s : State, s.run = .running → (∀ j : Instr, (opcodeRow j).admits (fetch s) = false) →
    step s = .next { s with run := .faulted, cause := .illegalOp, faultPc := s.pc }) ∧
  (∃ why, decode 0xFFFFFFFF = .illegal why) ∧ decode 0 = .instr .nop

/-- An operation's word configured where the sequencer fetches is the operation the next step runs. The placing is the
model's own (log 1). -/
def Obligations.PlacedOperationRuns : Prop :=
  ∀ (s : State) (i : Instr), wellFormed i = true → Memory.wf s.cfg.prog = true →
    step (s.withFetchWord 32 (encode i).toNat) = exec i (s.withFetchWord 32 (encode i).toNat)

/-! ### The step, faults, invariants -/

/-- R165: a running sequencer executes the operation it fetches and does nothing around it; a stopped one does nothing. -/
def Obligations.StepRunsDecodedOperation : Prop :=
  (∀ (s : State) (i : Instr), s.run = .running → decode (fetch s) = .instr i → wellFormed i = true →
    step s = exec i s) ∧
  (∀ s : State, s.run ≠ .running → step s = .next s)

/-- Every step of every state answers a next state: no operation, operand or data value stops the model (R17, R185). -/
def Obligations.StepAlwaysAnswersNext : Prop :=
  ∀ s : State, ∃ t, step s = .next t

/-- R184, R187: the step that stops the sequencer with a fault makes exactly the three writes. -/
def Obligations.FaultWritesThreeRegisters : Prop :=
  ∀ s t : State, s.run = .running → step s = .next t → t.run = .faulted →
    ∃ c : Cause, c ≠ .none ∧ t = { s with run := .faulted, cause := c, faultPc := s.pc }

/-- R185, R186: which word raises which cause, and that nothing else raises one. The footprint is R140's, every index of
it counted, so a downward segment from pixel 60 to 63 raises `PIXEL_RANGE` too: the model's reading, log 18. -/
def Obligations.FaultCausesExactly : Prop :=
  ∀ s t : State, s.run = .running → s.cause = .none → step s = .next t →
    (t.cause = .illegalOp ↔ ∃ why, decode (fetch s) = .illegal why) ∧
    (t.cause = .pixelRange ↔ ∃ i, decode (fetch s) = .instr i ∧ leavesPixels i) ∧
    (t.cause = .link ↔ (decode (fetch s) = .instr .dispatch ∧ s.lrv = true) ∨
      (decode (fetch s) = .instr .ret ∧ s.lrv = false)) ∧
    (t.run = .faulted ↔ t.cause ≠ .none)

/-- The invariant `State.Inv` holds right after reset. -/
def Obligations.InvariantAtReset : Prop := State.reset.Inv

/-- Every step keeps the invariant: `COUNT <= 50` (R24, R132), cause and fault address recorded exactly by a fault (R29),
the sweep index below 63 (R153), the program ROM in its canonical form (the model's own, log 2). -/
def Obligations.StepKeepsInvariant : Prop :=
  ∀ s t : State, s.Inv → step s = .next t → t.Inv

/-- So does every event between two steps: host accesses, readings, reset (R60, R165). -/
def Obligations.EventsKeepInvariant : Prop :=
  ∀ (e : Event) (s t : State), s.Inv → onEvent e s = .next t → t.Inv

/-- R201: the state after reset, from any state: every register at its value, the configuration kept. `RAW`, `RE`, `IM`,
`PIX` are unspecified, so nothing is said of them. -/
def Obligations.ResetGivesRegisterValues : Prop :=
  ∀ s t : State, onEvent .resets s = .next t →
    t.pc = 0 ∧ t.lr = 0 ∧ t.lrv = false ∧ t.run = .running ∧ t.cause = .none ∧ t.faultPc = 0 ∧
    t.mode = s.cfg.modeReset.val ∧ t.count = 0 ∧ t.avg = Vector.replicate 3 0 ∧
    t.band = Vector.replicate 2 (Vector.replicate 3 0) ∧ t.energy = Vector.replicate 2 0 ∧
    t.sweepPos = 0 ∧ t.sweepT0 = 0 ∧ t.cfg = s.cfg ∧ State.reset.cfg.modeReset.val = 1

/-- Each register and array is written only by the operations its rule names (R21 to R25, R28, R34 to R36), and each port
is used only by its operation (R193). -/
def Obligations.OnlyNamedOperationsWrite : Prop :=
  ∀ (i : Instr) (s t : State), exec i s = .next t →
    (t.band ≠ s.band → ∃ bank, i = .band bank ∨ i = .norm bank) ∧
    (t.energy ≠ s.energy → ∃ bank, i = .nrg bank) ∧
    (t.avg ≠ s.avg → i = .smooth) ∧ (t.count ≠ s.count → i = .smooth) ∧
    (t.sweepPos ≠ s.sweepPos ∨ t.sweepT0 ≠ s.sweepT0 → ∃ bank ceil color len start, i = .sweep bank ceil color len start) ∧
    (t.lr ≠ s.lr → i = .dispatch) ∧ (t.lrv ≠ s.lrv → i = .dispatch ∨ i = .ret) ∧
    (t.raw ≠ s.raw → i = .acq) ∧
    (t.im ≠ s.im → i = .acq ∨ i = .reload ∨ i = .fft) ∧
    (t.re ≠ s.re → i = .acq ∨ i = .reload ∨ i = .dcr ∨ i = .iir ∨ i = .win ∨ i = .mag ∨ i = .fft) ∧
    (t.pix ≠ s.pix → i = .clear ∨ footprint i ≠ []) ∧
    (t.samplesTaken ≠ s.samplesTaken → i = .acq) ∧
    (t.timesTaken ≠ s.timesTaken → ∃ bank ceil color len start, i = .sweep bank ceil color len start) ∧
    (t.frames ≠ s.frames → i = .commit)

/-- R33, R64: the core never writes `MODE` and nothing it does writes the configuration; neither does the host write the
latter. -/
def Obligations.ModeAndConfigurationKept : Prop :=
  (∀ s t : State, step s = .next t → t.mode = s.mode ∧ t.cfg = s.cfg) ∧
  (∀ (e : Event) (s t : State), onEvent e s = .next t → t.cfg = s.cfg)

/-- R32, R61: the core reads `MODE` only in `DISPATCH`: no other step's result depends on it. -/
def Obligations.ModeSeenOnlyByDispatch : Prop :=
  ∀ (s t : State) (m : BitVec 8), decode (fetch s) ≠ .instr .dispatch → step s = .next t →
    step { s with mode := m } = .next { t with mode := m }

/-! ### The host window -/

/-- R55: a host write sets `MODE` from address 0 and changes nothing from any other; a host read changes nothing; both are
served whatever `RUN` is. -/
def Obligations.HostWritesOnlyMode : Prop :=
  ∀ (s : State) (addr : WindowAddr) (v : Word),
    onEvent (.hostWrites 0 v) s = .next { s with mode := v.extractLsb' 0 8 } ∧
    (addr ≠ 0 → onEvent (.hostWrites addr v) s = .next s) ∧
    onEvent (.hostReads addr) s = .next s

/-- R56, R57: the whole window. -/
def Obligations.HostReadsWholeWindow : Prop :=
  ∀ s : State,
    hostRead s 0x000 = s.mode.setWidth 32 ∧ hostRead s 0x001 = statusWord s ∧
    hostRead s 0x002 = s.count.setWidth 32 ∧ hostRead s 0x003 = s.sweepPos.setWidth 32 ∧ hostRead s 0x004 = s.sweepT0 ∧
    (∀ b : Fin 3, hostRead s (BitVec.ofNat 12 (0x008 + b)) = (s.band[0])[b]) ∧ hostRead s 0x00B = s.energy[0] ∧
    (∀ b : Fin 3, hostRead s (BitVec.ofNat 12 (0x00C + b)) = (s.band[1])[b]) ∧ hostRead s 0x00F = s.energy[1] ∧
    (∀ b : Fin 3, hostRead s (BitVec.ofNat 12 (0x010 + b)) = s.avg[b]) ∧
    (∀ b : Fin 3, hostRead s (BitVec.ofNat 12 (0x013 + b)) = BitVec.ofInt 32 (thr s b)) ∧
    (∀ p : Fin 60, hostRead s (BitVec.ofNat 12 (0x040 + p)) = (s.pix[p]).setWidth 32) ∧
    (∀ i : Fin 128, hostRead s (BitVec.ofNat 12 (0x100 + i)) = s.re[i]) ∧
    (∀ i : Fin 128, hostRead s (BitVec.ofNat 12 (0x180 + i)) = s.im[i]) ∧
    (∀ i : Fin 128, hostRead s (BitVec.ofNat 12 (0x200 + i)) = (s.raw[i]).setWidth 32) ∧
    (∀ a : WindowAddr,
      0x005 ≤ a.toNat ∧ a.toNat < 0x008 ∨ 0x016 ≤ a.toNat ∧ a.toNat < 0x040 ∨
      0x07C ≤ a.toNat ∧ a.toNat < 0x100 ∨ 0x280 ≤ a.toNat → hostRead s a = 0) ∧
    (∀ (a : WindowAddr) (v : Word), a ≠ 0 → hostWrite a v s = s)

/-- R31: the fields of `STATUS`, bit by bit. -/
def Obligations.StatusLayout : Prop :=
  (∀ s : State, ∃ w : Word, hostRead s 0x001 = w ∧
    w.extractLsb' 0 2 = (match s.run with | .running => 0 | .halted => 1 | .faulted => 2) ∧
    w.extractLsb' 2 1 = (if s.lrv = true then 1#1 else 0#1) ∧ w.extractLsb' 3 1 = 0 ∧
    w.extractLsb' 4 4 = (match s.cause with | .none => 0 | .illegalOp => 1 | .pixelRange => 2 | .link => 3) ∧
    w.extractLsb' 8 8 = s.faultPc ∧ w.extractLsb' 16 8 = s.pc ∧ w.extractLsb' 24 8 = s.lr ∧
    ∀ v : Word, hostWrite 0x001 v s = s) ∧
  hostRead State.reset 0x001 = 0

/-! ### Control operations -/

/-- R160. -/
def Obligations.NopOnlyAdvances : Prop :=
  encode .nop = 0x00000000 ∧ ∀ s : State, exec .nop s = .next { s with pc := s.pc + 1 }

/-- R161: `HALT` keeps `PC`; afterwards no step changes anything, the host still writes `MODE`, and only reset
leaves `HALTED`. -/
def Obligations.HaltStopsUntilReset : Prop :=
  encode .halt = 0x01000000 ∧
  ∀ s : State, exec .halt s = .next { s with run := .halted } ∧
    ∀ t : State, exec .halt s = .next t → step t = .next t ∧
      (∀ v : Word, onEvent (.hostWrites 0 v) t = .next { t with mode := v.extractLsb' 0 8 }) ∧
      ∀ (e : Event) (u : State), onEvent e t = .next u → (u.run = .halted ↔ e ≠ .resets)

/-- R162. -/
def Obligations.EndcGoesToTop : Prop :=
  encode .endc = 0x02000000 ∧ ∀ s : State, exec .endc s = .next { s with pc := 0 }

/-- R163: the three cases of `DISPATCH`. -/
def Obligations.DispatchCallsModeRoutine : Prop :=
  encode .dispatch = 0x03000000 ∧
  ∀ s : State,
    (s.lrv = true → exec .dispatch s = .next { s with run := .faulted, cause := .link, faultPc := s.pc }) ∧
    (s.lrv = false → ∀ h : 1 ≤ s.mode.toNat ∧ s.mode.toNat ≤ 7,
      exec .dispatch s = .next { s with lr := s.pc + 1, lrv := true, pc := s.cfg.vec[s.mode.toNat - 1] }) ∧
    (s.lrv = false → s.mode.toNat = 0 ∨ 8 ≤ s.mode.toNat → exec .dispatch s = .next { s with pc := s.pc + 1 })

/-- R164: the two cases of `RET`. -/
def Obligations.RetReturnsThroughLink : Prop :=
  encode .ret = 0x04000000 ∧
  ∀ s : State,
    (s.lrv = true → exec .ret s = .next { s with pc := s.lr, lrv := false }) ∧
    (s.lrv = false → exec .ret s = .next { s with run := .faulted, cause := .link, faultPc := s.pc })

/-! ### Acquisition -/

/-- R91: 128 readings, each kept when it is in 0 to 4095 and else replaced by the value stored before it, 2048 for the
first; `RE` takes the stored value in Q8 and `IM` zero. -/
def Obligations.AcqStoresBlock : Prop :=
  encode .acq = 0x10000000 ∧
  ∀ s : State, ∃ (raw : Vector RawSample 128) (re im : Vector Word 128),
    exec .acq s = .next
      { s with raw := raw, re := re, im := im, samples := s.samples.drop 128, samplesTaken := s.samplesTaken + 128
               pc := s.pc + 1 } ∧
    (∀ i : Fin 128,
      let r := (sampleReading s i).toInt
      (0 ≤ r ∧ r ≤ 4095 → (raw[i].toNat : Int) = r) ∧
      (r < 0 ∨ 4095 < r → i.val = 0 → raw[i].toNat = 2048) ∧
      (r < 0 ∨ 4095 < r → ∀ j : Fin 128, j.val + 1 = i.val → raw[i] = raw[j])) ∧
    ∀ i : Fin 128, re[i].toInt = raw[i].toNat * 256 ∧ im[i] = 0

/-- R92: `RELOAD` rebuilds the working arrays from `RAW`, and so gives back the arrays `ACQ` left, whatever ran between, as
long as `RAW` is the one it stored. -/
def Obligations.ReloadRestoresAcquiredArrays : Prop :=
  encode .reload = 0x11000000 ∧
  (∀ s : State, ∃ re im : Vector Word 128,
    exec .reload s = .next { s with re := re, im := im, pc := s.pc + 1 } ∧
    ∀ i : Fin 128, re[i].toInt = s.raw[i].toNat * 256 ∧ im[i] = 0) ∧
  ∀ s t u v : State, exec .acq s = .next t → u.raw = t.raw → exec .reload u = .next v → v.re = t.re ∧ v.im = t.im

/-! ### Time-domain stages -/

/-- R100: every element loses the floor mean of the block. -/
def Obligations.DcrSubtractsBlockMean : Prop :=
  encode .dcr = 0x12000000 ∧
  ∀ s : State, ∃ re : Vector Word 128,
    exec .dcr s = .next { s with re := re, pc := s.pc + 1 } ∧
    ∀ i : Fin 128, re[i] = BitVec.ofInt 32 (s.re[i].toInt - (∑ j : Fin 128, s.re[j].toInt) / 128)

/-- R100's property: directly after `ACQ` or `RELOAD`, `DCR` leaves a sum of exactly 0 and every element within
1048320. -/
def Obligations.DcrSumIsZeroAfterAcquisition : Prop :=
  ∀ s t u : State, exec .acq s = .next t ∨ exec .reload s = .next t → exec .dcr t = .next u →
    ∑ i : Fin 128, u.re[i].toInt = 0 ∧ ∀ i : Fin 128, |u.re[i].toInt| ≤ 1048320

/-- R101: the recurrence, on the outputs already written. -/
def Obligations.IirFollowsRecurrence : Prop :=
  encode .iir = 0x13000000 ∧
  ∀ s : State, ∃ re : Vector Word 128,
    exec .iir s = .next { s with re := re, pc := s.pc + 1 } ∧ re[0] = s.re[0] ∧
    ∀ i j : Fin 128, j.val + 1 = i.val →
      re[i] = BitVec.ofInt 32 ((22938 * re[j].toInt + 9830 * s.re[i].toInt + 16384) / 32768)

/-- R101's corner cases: `IIR` never increases the block's peak and leaves a constant block unchanged. -/
def Obligations.IirPeakNeverGrows : Prop :=
  ∀ s t : State, exec .iir s = .next t →
    (∀ M : Int, (∀ i : Fin 128, |s.re[i].toInt| ≤ M) → ∀ i : Fin 128, |t.re[i].toInt| ≤ M) ∧
    ((∀ i j : Fin 128, s.re[i] = s.re[j]) → t.re = s.re)

/-- R103: each element times its window word, rounded once, and so never larger than it was. -/
def Obligations.WinMultipliesByWindow : Prop :=
  encode .win = 0x14000000 ∧
  ∀ s : State, ∃ re : Vector Word 128,
    exec .win s = .next { s with re := re, pc := s.pc + 1 } ∧
    ∀ i : Fin 128, re[i] = BitVec.ofInt 32 ((s.re[i].toInt * window i + 16384) / 32768) ∧
      0 < window i ∧ window i ≤ 32763 ∧ |re[i].toInt| ≤ |s.re[i].toInt|

/-! ### Transform and magnitude -/

/-- R113: the butterfly's product is two sums of two exact products, each rounded once; by 1.0 it is the identity and by
-j exact. -/
def Obligations.ButterflyProduct : Prop :=
  ∀ (x : Spectrum) (p q : Fin 128) (k : Fin 64),
    productRe x ⟨p, q, k⟩ = (x.re[q].toInt * twiddleRe k - x.im[q].toInt * twiddleIm k + 16384) / 32768 ∧
    productIm x ⟨p, q, k⟩ = (x.re[q].toInt * twiddleIm k + x.im[q].toInt * twiddleRe k + 16384) / 32768 ∧
    (k.val = 0 → productRe x ⟨p, q, k⟩ = x.re[q].toInt ∧ productIm x ⟨p, q, k⟩ = x.im[q].toInt) ∧
    (k.val = 32 → productRe x ⟨p, q, k⟩ = x.im[q].toInt ∧ productIm x ⟨p, q, k⟩ = -x.re[q].toInt)

/-- R112: within a stage the order of the butterflies does not change the result: done one after the other in place, in any
order, they give what the model's stage gives all at once. -/
def Obligations.FftStageIsAnyButterflyOrder : Prop :=
  ∀ (t : Nat) (x : Spectrum) (l : List Butterfly), 1 ≤ t → t ≤ 7 → l.Perm (stageButterflies t) →
    l.foldl butterflyInPlace x = fftStage t x

/-- R112: `FFT` is the pseudocode: the bit-reversal scatter, then stages 1 to 7 in place. -/
def Obligations.FftRunsPseudocode : Prop :=
  encode .fft = 0x15000000 ∧
  ∀ s : State, ∃ x : Spectrum,
    (∀ i : Fin 128, x.re[bitrev7 i]? = some s.re[i] ∧ x.im[bitrev7 i]? = some s.im[i]) ∧
    let y := [1, 2, 3, 4, 5, 6, 7].foldl (fun z t => (stageButterflies t).foldl butterflyInPlace z) x
    exec .fft s = .next { s with re := y.re, im := y.im, pc := s.pc + 1 }

/-- R112's corner cases: an impulse gives a flat spectrum, a constant block gives one line at bin 0, both exactly. -/
def Obligations.FftOfImpulseAndConstant : Prop :=
  ∀ (s t : State), (∀ i : Fin 128, s.im[i] = 0) → exec .fft s = .next t →
    ((∀ i : Fin 128, i.val ≠ 0 → s.re[i] = 0) → ∀ k : Fin 128, t.re[k] = s.re[0] ∧ t.im[k] = 0) ∧
    ((∀ i : Fin 128, s.re[i] = s.re[0]) →
      t.re[0] = 128 * s.re[0] ∧ (∀ k : Fin 128, k.val ≠ 0 → t.re[k] = 0) ∧ ∀ k : Fin 128, t.im[k] = 0)

/-- R114: the floor of the root of the exact sum of squares; `IM` is left as it is. -/
def Obligations.MagTakesFloorRoot : Prop :=
  encode .mag = 0x16000000 ∧
  ∀ s : State, ∃ re : Vector Word 128,
    exec .mag s = .next { s with re := re, pc := s.pc + 1 } ∧
    ∀ k : Fin 128, ∃ m : Nat,
      (m : Int) * m ≤ s.re[k].toInt * s.re[k].toInt + s.im[k].toInt * s.im[k].toInt ∧
      s.re[k].toInt * s.re[k].toInt + s.im[k].toInt * s.im[k].toInt < ((m : Int) + 1) * (m + 1) ∧
      |s.re[k].toInt| ≤ m ∧ |s.im[k].toInt| ≤ m ∧ (m : Int) ≤ |s.re[k].toInt| + |s.im[k].toInt| ∧
      re[k] = BitVec.ofNat 32 m

/-- R209: from any state and any readings, whether the block comes from `ACQ` or from `RELOAD`, after `DCR`, `IIR`, `WIN` no
element exceeds M = 1048320, after `FFT` no word exceeds the rule's bound, and after `MAG` every magnitude is non-negative
and below its bound. -/
def Obligations.AcquiredSpectrumIsBounded : Prop :=
  ∀ load : Instr, load = .acq ∨ load = .reload →
    (∀ s t : State, execAll [load, .dcr, .iir, .win] s = .next t →
      ∀ i : Fin 128, |t.re[i].toInt| ≤ 1048320 ∧ t.im[i] = 0) ∧
    (∀ s t : State, execAll [load, .dcr, .iir, .win, .fft] s = .next t →
      ∀ i : Fin 128, |t.re[i].toInt| < 501057200 ∧ |t.im[i].toInt| < 501057200) ∧
    (∀ s t : State, execAll [load, .dcr, .iir, .win, .fft, .mag] s = .next t →
      ∀ i : Fin 128, 0 ≤ t.re[i].toInt ∧ t.re[i].toInt < 708601888)

/-! ### Bands, energy, normalisation -/

/-- R120: the three band means, over 0 to 19, 20 to 79 and 80 to 127. -/
def Obligations.BandTakesThreeMeans : Prop :=
  encode (.band 0) = 0x17000000 ∧ encode (.band 1) = 0x17800000 ∧
  ∀ (bank : Bank) (s : State), exec (.band bank) s = .next
    { s with
      band := s.band.set bank #v[
        BitVec.ofInt 32 ((∑ k ∈ Finset.range 20, signedAt s.re k) / 20),
        BitVec.ofInt 32 ((∑ k ∈ Finset.Ico 20 80, signedAt s.re k) / 60),
        BitVec.ofInt 32 ((∑ k ∈ Finset.Ico 80 128, signedAt s.re k) / 48)]
      pc := s.pc + 1 }

/-- R121: the floor root of the floor mean square, and that it is 0 exactly when the sum of squares is below 128. -/
def Obligations.NrgTakesRootMeanSquare : Prop :=
  encode (.nrg 0) = 0x18000000 ∧ encode (.nrg 1) = 0x18800000 ∧
  ∀ (bank : Bank) (s : State), ∃ m : Nat,
    let Q := ∑ k : Fin 128, s.re[k].toInt * s.re[k].toInt
    exec (.nrg bank) s = .next { s with energy := s.energy.set bank (BitVec.ofNat 32 m), pc := s.pc + 1 } ∧
    (m : Int) * m ≤ Q / 128 ∧ Q / 128 < ((m : Int) + 1) * (m + 1) ∧ m ≤ 2 ^ 31 ∧ (BitVec.ofNat 32 m = 0 ↔ Q < 128)

/-- R122: gain times amplitude over energy, one floor division; with energy 0 the bank is left as it is (R182). -/
def Obligations.NormScalesByGainOverEnergy : Prop :=
  encode (.norm 0) = 0x19000000 ∧ encode (.norm 1) = 0x19800000 ∧
  ∀ (bank : Bank) (s : State),
    (s.energy[bank] = 0 → exec (.norm bank) s = .next { s with pc := s.pc + 1 }) ∧
    (s.energy[bank] ≠ 0 → exec (.norm bank) s = .next
      { s with
        band := s.band.set bank #v[
          BitVec.ofNat 32 (((s.band[bank])[0]).toNat * 150 * 256 / s.energy[bank].toNat),
          BitVec.ofNat 32 (((s.band[bank])[1]).toNat * 100 * 256 / s.energy[bank].toNat),
          BitVec.ofNat 32 (((s.band[bank])[2]).toNat * 150 * 256 / s.energy[bank].toNat)]
        pc := s.pc + 1 })

/-- R122, R209: means and energy taken from the same non-negative magnitudes normalise below `2^18`. -/
def Obligations.NormalisedBelowTwoTo18 : Prop :=
  ∀ (bank : Bank) (s t : State), (∀ k : Fin 128, 0 ≤ s.re[k].toInt) →
    execAll [.band bank, .nrg bank, .norm bank] s = .next t → ∀ b : Fin 3, ((t.band[bank])[b]).toNat < 2 ^ 18

/-! ### Smoother and thresholds -/

/-- R130: the three averages with the count on entry, then the count, capped at 50. -/
def Obligations.SmoothUpdatesAverages : Prop :=
  encode .smooth = 0x1A000000 ∧
  ∀ s : State, ∃ (avg : Vector Word 3) (count : BitVec 6),
    exec .smooth s = .next { s with avg := avg, count := count, pc := s.pc + 1 } ∧
    count.toNat = min (s.count.toNat + 1) 50 ∧
    ∀ b : Fin 3, avg[b].toNat = (s.avg[b].toNat * s.count.toNat + ((s.band[0])[b]).toNat) / (s.count.toNat + 1) ∧
      min s.avg[b].toNat ((s.band[0])[b]).toNat ≤ avg[b].toNat ∧
      avg[b].toNat ≤ max s.avg[b].toNat ((s.band[0])[b]).toNat

/-- R132 (b), (c): with the band amplitudes constant, `k` executions from count 0 leave the amplitudes themselves and the
count `min(k, 50)`. -/
def Obligations.SmoothOfConstantInput : Prop :=
  ∀ (k : Nat) (s : State), s.count = 0 → ∃ t, execAll (List.replicate k .smooth) s = .next t ∧
    t.count.toNat = min k 50 ∧ (1 ≤ k → t.avg = s.band[0])

/-- R131: the thresholds are 0.8, 1.2, 0.8 in Q15 times the present average, rounded, never negative, and the host sees
them. -/
def Obligations.ThresholdFormula : Prop :=
  ∀ s : State,
    thr s 0 = ((s.avg[0].toNat : Int) * 26214 + 16384) / 32768 ∧
    thr s 1 = ((s.avg[1].toNat : Int) * 39322 + 16384) / 32768 ∧
    thr s 2 = ((s.avg[2].toNat : Int) * 26214 + 16384) / 32768 ∧
    ∀ b : Fin 3, 0 ≤ thr s b

/-! ### Rendering -/

/-- R146: the tier count as a table, for a positive threshold and for threshold 0. -/
def Obligations.TierCountTable : Prop :=
  ∀ (s : State) (bank : Bank) (b : Fin 3),
    let A : Int := ((s.band[bank])[b]).toNat
    let T := thr s b
    let n := tierCount s bank b
    (A = 0 → n = 0) ∧ (T = 0 → 0 < A → n = 6) ∧
    (0 < T →
      (0 < A → A ≤ T → n = 1) ∧ (T < A → 4 * A ≤ 5 * T → n = 2) ∧ (5 * T < 4 * A → 4 * A ≤ 6 * T → n = 3) ∧
      (6 * T < 4 * A → 4 * A ≤ 7 * T → n = 4) ∧ (7 * T < 4 * A → A ≤ 2 * T → n = 5) ∧ (2 * T < A → n = 6))

/-- R147: a `TIER` whose six pixels lie inside the pixel RAM lights the first `tier_n` of them and writes nothing else;
R147's two conditions on the fields raise `PIXEL_RANGE`. (For a downward bar from 60 to 63 see `FaultCausesExactly`.) -/
def Obligations.TierLightsPrefix : Prop :=
  ∀ (bank : Bank) (dir : Dir) (color : BitVec 3) (band : Band) (start : BitVec 6),
    encode (.tier bank dir color band start) =
      0x21000000 ||| (bankBit bank).setWidth 32 <<< 23 ||| (dirBit dir).setWidth 32 <<< 22 |||
        color.setWidth 32 <<< 18 ||| (bandCode band).setWidth 32 <<< 16 ||| start.setWidth 32 ∧
    ∀ s : State,
      (¬ leavesPixels (.tier bank dir color band start) → ∃ pix : Vector Pixel 60,
        exec (.tier bank dir color band start) s = .next { s with pix := pix, pc := s.pc + 1 } ∧
        ∀ p : Fin 60, pix[p] =
          if (p.val : Int) ∈ segIndices dir start (tierCount s bank (bandIx band)) then s.cfg.clut[color.toNat]
          else s.pix[p]) ∧
      (dir = .up ∧ 54 < start.toNat ∨ dir = .down ∧ start.toNat < 5 →
        exec (.tier bank dir color band start) s =
          .next { s with run := .faulted, cause := .pixelRange, faultPc := s.pc })

/-- R148: `EBKT` lights the first `min(ENERGY div 64000, len)` pixels of its segment, or raises `PIXEL_RANGE` on
R148's conditions. That `exec` raises `ILLEGAL_OP` on the term with `len = 0`, which no word decodes to, is the MODEL'S
CHOICE and no rule of the spec: log 13. -/
def Obligations.EbktLightsBuckets : Prop :=
  ∀ (bank : Bank) (dir : Dir) (color : BitVec 3) (len start : BitVec 6),
    encode (.ebkt bank dir color len start) =
      0x22000000 ||| (bankBit bank).setWidth 32 <<< 23 ||| (dirBit dir).setWidth 32 <<< 22 |||
        color.setWidth 32 <<< 18 ||| len.setWidth 32 <<< 8 ||| start.setWidth 32 ∧
    ∀ s : State,
      (len ≠ 0 → ¬ leavesPixels (.ebkt bank dir color len start) → ∃ pix : Vector Pixel 60,
        exec (.ebkt bank dir color len start) s = .next { s with pix := pix, pc := s.pc + 1 } ∧
        ∀ p : Fin 60, pix[p] =
          if (p.val : Int) ∈ segIndices dir start (min (s.energy[bank].toNat / 64000) len.toNat)
          then s.cfg.clut[color.toNat] else s.pix[p]) ∧
      (len ≠ 0 → dir = .up ∧ 60 < start.toNat + len.toNat ∨ dir = .down ∧ start.toNat + 1 < len.toNat →
        exec (.ebkt bank dir color len start) s =
          .next { s with run := .faulted, cause := .pixelRange, faultPc := s.pc }) ∧
      (len = 0 → exec (.ebkt bank dir color len start) s =
        .next { s with run := .faulted, cause := .illegalOp, faultPc := s.pc })

/-- R149: `WASH` fills its whole segment with the colour scaled by the brightness, or raises `PIXEL_RANGE`. That `exec`
raises `ILLEGAL_OP` on the term with `len = 0`, which no word decodes to, is the MODEL'S CHOICE and no rule of the spec:
log 13. -/
def Obligations.WashFillsSegment : Prop :=
  ∀ (bank : Bank) (ceil : Ceil) (color : BitVec 3) (len start : BitVec 6),
    encode (.wash bank ceil color len start) =
      0x23000000 ||| (bankBit bank).setWidth 32 <<< 23 ||| (ceilBit ceil).setWidth 32 <<< 21 |||
        color.setWidth 32 <<< 18 ||| len.setWidth 32 <<< 8 ||| start.setWidth 32 ∧
    ∀ s : State,
      (len ≠ 0 → start.toNat + len.toNat ≤ 60 → ∃ pix : Vector Pixel 60,
        exec (.wash bank ceil color len start) s = .next { s with pix := pix, pc := s.pc + 1 } ∧
        ∀ p : Fin 60, pix[p] =
          if start.toNat ≤ p.val ∧ p.val < start.toNat + len.toNat
          then scale (s.cfg.clut[color.toNat]) (bri s bank ceil) else s.pix[p]) ∧
      (len ≠ 0 → 60 < start.toNat + len.toNat →
        exec (.wash bank ceil color len start) s =
          .next { s with run := .faulted, cause := .pixelRange, faultPc := s.pc }) ∧
      (len = 0 → exec (.wash bank ceil color len start) s =
        .next { s with run := .faulted, cause := .illegalOp, faultPc := s.pc })

/-- R150: the raw count from the exact total deviation, a number from 0 to 12; a constant block gives 0. -/
def Obligations.RawCountFormula : Prop :=
  ∀ raw : Vector RawSample 128,
    let S : Int := ∑ i : Fin 128, (raw[i].toNat : Int)
    let D : Int := ∑ i : Fin 128, |128 * (raw[i].toNat : Int) - S|
    (rawCount raw : Int) = min (D / 64) 128000 * 12 / 128000 ∧ rawCount raw ≤ 12 ∧
    ((∀ i j : Fin 128, raw[i] = raw[j]) → rawCount raw = 0)

/-- R151: `RAWC` lights the first `rawc_n` places of the column order, which is R152's in the default instance, or raises
`PIXEL_RANGE`. -/
def Obligations.RawcLightsColumns : Prop :=
  Instance.default.colIdx = #v[0, 4, 8, 12, 1, 5, 9, 13, 2, 6, 10, 14] ∧
  ∀ (color : BitVec 3) (start : BitVec 6),
    encode (.rawc color start) = 0x24000000 ||| color.setWidth 32 <<< 18 ||| start.setWidth 32 ∧
    ∀ s : State,
      (start.toNat ≤ 45 → ∃ pix : Vector Pixel 60,
        exec (.rawc color start) s = .next { s with pix := pix, pc := s.pc + 1 } ∧
        ∀ p : Fin 60,
          ((∃ k : Fin 12, k.val < rawCount s.raw ∧ start.toNat + (s.cfg.colIdx[k]).val = p.val) →
            pix[p] = s.cfg.clut[color.toNat]) ∧
          ((¬ ∃ k : Fin 12, k.val < rawCount s.raw ∧ start.toNat + (s.cfg.colIdx[k]).val = p.val) →
            pix[p] = s.pix[p])) ∧
      (45 < start.toNat → exec (.rawc color start) s =
        .next { s with run := .faulted, cause := .pixelRange, faultPc := s.pc })

/-- R153, R197: one time reading; the index advances exactly when the energy is not 0 and the elapsed time exceeds the
delay; the pixel it points at takes the scaled colour. A faulting `SWEEP` consumes no reading. That `exec` raises
`ILLEGAL_OP` on the term with `len = 0`, which no word decodes to, is the MODEL'S CHOICE and no rule of the spec: log 13. -/
def Obligations.SweepAdvancesAndLightsOne : Prop :=
  ∀ (bank : Bank) (ceil : Ceil) (color : BitVec 3) (len start : BitVec 6),
    encode (.sweep bank ceil color len start) =
      0x25000000 ||| (bankBit bank).setWidth 32 <<< 23 ||| (ceilBit ceil).setWidth 32 <<< 21 |||
        color.setWidth 32 <<< 18 ||| len.setWidth 32 <<< 8 ||| start.setWidth 32 ∧
    ∀ s : State,
      (len ≠ 0 → start.toNat + len.toNat ≤ 60 →
        let now := timeReading s
        let adv := s.energy[bank] ≠ 0 ∧ 256000000 / s.energy[bank].toNat < (now - s.sweepT0).toNat
        let pos : BitVec 6 := if adv then BitVec.ofNat 6 ((s.sweepPos.toNat + 1) % len.toNat) else s.sweepPos
        exec (.sweep bank ceil color len start) s = .next
          { s with
            times := s.times.drop 1, timesTaken := s.timesTaken + 1, sweepPos := pos
            sweepT0 := if adv then now else s.sweepT0
            pix := s.pix.setIfInBounds (start.toNat + pos.toNat % len.toNat)
              (scale (s.cfg.clut[color.toNat]) (bri s bank ceil))
            pc := s.pc + 1 } ∧
        start.toNat + pos.toNat % len.toNat < 60) ∧
      (len ≠ 0 → 60 < start.toNat + len.toNat →
        exec (.sweep bank ceil color len start) s =
          .next { s with run := .faulted, cause := .pixelRange, faultPc := s.pc }) ∧
      (len = 0 → exec (.sweep bank ceil color len start) s =
        .next { s with run := .faulted, cause := .illegalOp, faultPc := s.pc })

/-- R145: `CLEAR` makes all sixty pixels dark. -/
def Obligations.ClearDarkensFrame : Prop :=
  encode .clear = 0x20000000 ∧
  ∀ s : State, exec .clear s = .next { s with pix := Vector.replicate 60 0, pc := s.pc + 1 }

/-- R158: `COMMIT` hands the sixty pixels to the sink and keeps them; the sink's groups (R178) cut that line whole. -/
def Obligations.CommitEmitsFrame : Prop :=
  encode .commit = 0x26000000 ∧
  (∀ s : State, exec .commit s = .next { s with frames := s.frames ++ [s.pix], pc := s.pc + 1 }) ∧
  ∀ (f : Vector Pixel 60),
    (frameGroups .a f).flatten = f.toList ∧ (frameGroups .b f).flatten = f.toList ∧
    (frameGroups .a f).map List.length = [16, 12, 16, 16] ∧ (frameGroups .b f).map List.length = [28, 32]

/-- R143: the brightness: its formula, both ends, where it leaves 0 and where it reaches 255. -/
def Obligations.BrightnessClampsAndScales : Prop :=
  ∀ (s : State) (bank : Bank) (ceil : Ceil),
    let C : Nat := match ceil with | .c600 => 153600 | .c1500 => 384000
    let total := (((s.band[bank])[0]).toNat + ((s.band[bank])[1]).toNat + ((s.band[bank])[2]).toNat) / 3
    bri s bank ceil = min total C * 255 / C ∧ bri s bank ceil ≤ 255 ∧
    (total = 0 → bri s bank ceil = 0) ∧ (bri s bank ceil = 255 ↔ C ≤ total) ∧ (1 ≤ bri s bank ceil ↔ C ≤ total * 255)

/-- R144: `scale` acts channel by channel; 255 keeps the colour, 0 makes it dark, a channel of 255 becomes the brightness. -/
def Obligations.ScaleActsOnChannels : Prop :=
  ∀ (c : Pixel) (v : Nat), v ≤ 255 →
    redOf (scale c v) = redOf c * v / 255 ∧ greenOf (scale c v) = greenOf c * v / 255 ∧
    blueOf (scale c v) = blueOf c * v / 255 ∧ scale c 255 = c ∧ scale c 0 = 0 ∧
    (redOf c = 255 → redOf (scale c v) = v) ∧ (greenOf c = 255 → greenOf (scale c v) = v) ∧
    (blueOf c = 255 → blueOf (scale c v) = v)

/-- R159: (a) all-zero results keep a dark frame dark under every operation with a footprint; (b) an unrecognised mode
commits sixty dark pixels; (c) the bucket count grows with the energy and stops at `len`; (d) so does the brightness,
from 0 to 255. -/
def Obligations.RenderPropertiesOfDoc : Prop :=
  (∀ (i : Instr) (s t : State), footprint i ≠ [] → s.pix = Vector.replicate 60 0 →
    s.band = Vector.replicate 2 (Vector.replicate 3 0) → s.energy = Vector.replicate 2 0 →
    (∀ i j : Fin 128, s.raw[i] = s.raw[j]) → exec i s = .next t →
    t.pix = Vector.replicate 60 0 ∧ t.sweepPos = s.sweepPos) ∧
  (∀ s t : State, s.lrv = false → s.mode.toNat = 0 ∨ 8 ≤ s.mode.toNat →
    execAll [.clear, .dispatch, .commit] s = .next t → t.frames = s.frames ++ [Vector.replicate 60 0]) ∧
  (∀ e e' len : Nat, e ≤ e' →
    bucketCount e len ≤ bucketCount e' len ∧ bucketCount e len ≤ len ∧ (64000 * len ≤ e → bucketCount e len = len)) ∧
  (∀ (t t' : Nat) (ceil : Ceil), t ≤ t' →
    brightness t (ceilValue ceil) ≤ brightness t' (ceilValue ceil) ∧ brightness 0 (ceilValue ceil) = 0 ∧
    (ceilValue ceil ≤ t → brightness t (ceilValue ceil) = 255))

/-! ### Whole cycles -/

/-- R210: the second analysis, into bank 1, of the retained `RAW` yields the triple and the energy of the first. -/
def Obligations.DualPathGivesSameTriple : Prop :=
  ∀ s t u v : State, execAll (.acq :: analyze 0) s = .next t → u.raw = t.raw →
    execAll (.reload :: analyze 1) u = .next v →
    v.band[1] = t.band[0] ∧ v.energy[1] = t.energy[0] ∧ v.band[0] = u.band[0] ∧ v.energy[0] = u.energy[0] ∧
    v.raw = u.raw ∧ v.avg = u.avg

/-- R175: with the default program and vectors the sequencer never leaves its path, so it never faults, whatever the
readings, the host and reset do; and reset puts it on the path. -/
def Obligations.DefaultProgramNeverFaults : Prop :=
  State.reset.OnDefaultPath ∧
  ∀ (e : Event) (s t : State), s.OnDefaultPath → onEvent e s = .next t → t.OnDefaultPath

/-- R175: one cycle from the top, with the mode standing still: its number of steps, and what it draws, emits and counts. -/
def Obligations.DefaultCycleReturnsToTop : Prop :=
  ∀ s : State, s.HasDefaultProgram → s.run = .running → s.pc = 0 → s.lrv = false →
    ∃ (t : State) (f : Vector Pixel 60), stepTimes (cycleSteps s.mode) s = .next t ∧
      t.run = .running ∧ t.pc = 0 ∧ t.lrv = false ∧ t.mode = s.mode ∧ t.cfg = s.cfg ∧
      t.samplesTaken = s.samplesTaken + 128 ∧ t.timesTaken = s.timesTaken + (if s.mode.toNat = 2 then 1 else 0) ∧
      t.frames = s.frames ++ [f] ∧ t.count.toNat = min (s.count.toNat + 1) 50

end
end

