-- ==== Sys2Proof/Laws/Config.lean ====
section
/-! SUPPORT. The parameters of R10 as the numbers the rules print, and the operations over them with those numbers in place:
proofs cite these instead of unfolding Config. -/

namespace Sys2Proof.Machine

/-! ### Parameters -/

theorem dataOne_eq : Config.dataOne = 256 := rfl
theorem coeffOne_eq : Config.coeffOne = 32768 := rfl
theorem bucketWidth_eq : Config.bucketWidth = 64000 := rfl
theorem ceil600_eq : Config.ceil600 = 153600 := rfl
theorem ceil1500_eq : Config.ceil1500 = 384000 := rfl
theorem rawCeil_eq : Config.rawCeil = 128000 := rfl
theorem rawLeds_eq : Config.rawLeds = 12 := rfl
theorem rawScale_eq : Config.rawScale = 64 := rfl
theorem sweepNumerator_eq : Config.sweepNumerator = 256000000 := rfl

/-! ### Coefficients -/

theorem iirA_toInt : iirA.toInt = 22938 := by decide
theorem iirB_toInt : iirB.toInt = 9830 := by decide
theorem kthr_toInt (b : Fin 3) : (kthr b).toInt = if b = 1 then 39322 else 26214 := by revert b; decide
theorem gain_toNat (b : Fin 3) : (gain b).toNat = if b = 1 then 100 else 150 := by revert b; decide

/-! ### Operations -/

/-- `round_q15` as R14 prints it. -/
theorem roundQ15_eq (v : Int) : roundQ15 v = (v + 16384) / 32768 := rfl

/-- The recurrence of `IIR` as R101 prints it. -/
theorem iirNext_eq (y x : Word) : iirNext y x = wrapS32 ((22938 * y.toInt + 9830 * x.toInt + 16384) / 32768) := by
  rw [iirNext, roundQ15_eq, iirA_toInt, iirB_toInt]

/-- The block mean as R100 prints it. -/
theorem blockMean_eq (re : Vector Word 128) : blockMean re = sumUp 128 (signedAt re) / 128 := rfl

/-- The threshold as R131 prints it. -/
theorem thr_eq (s : State) (b : Fin 3) :
    thr s b = ((s.avg[b].toNat : Int) * (if b = 1 then 39322 else 26214) + 16384) / 32768 := by
  rw [thr, roundQ15_eq, kthr_toInt]

/-- The normalised amplitude as R122 prints it. -/
theorem normalised_eq (a : Nat) (b : Fin 3) (e : Nat) :
    normalised a b e = a * (if b = 1 then 100 else 150) * 256 / e := by
  rw [normalised, gain_toNat, dataOne_eq]

/-- The bucket count as R148 prints it. -/
theorem bucketCount_eq (e len : Nat) : bucketCount e len = min (e / 64000) len := rfl

/-- The top of R10 and R148: it is where a group of 16 saturates, and no lower energy fills one. -/
theorem bucketCount_top (e : Nat) : bucketCount e 16 = 16 ↔ Config.bucketTop * Config.dataOne ≤ e := by
  rw [bucketCount_eq, Config.bucketTop, dataOne_eq]
  omega

end Sys2Proof.Machine
end

