-- ==== Sys2Proof/Laws/Encoding.lean ====
section
/-! SUPPORT. Words of format F taken apart: masking one field by field, and what each field of a packed word reads as
(`30_encoding.md` R71). -/

namespace Sys2Proof

theorem and_append {m n : Nat} (a c : BitVec m) (b d : BitVec n) : (a ++ b) &&& (c ++ d) = (a &&& c) ++ (b &&& d) := by
  ext i hi
  simp only [BitVec.getElem_and, BitVec.getElem_append]
  split <;> simp

/-- The bitwise `and` of a word of format F and a mask cut at the same places, field by field. -/
theorem formatF_and (op o : BitVec 8) (b b' d d' c c' : BitVec 1) (k k' : BitVec 3) (n n' z' : BitVec 2)
    (l l' : BitVec 6) (y' : BitVec 2) (s s' : BitVec 6) :
    formatF op b d c k n l s &&& (o ++ b' ++ d' ++ c' ++ k' ++ n' ++ z' ++ l' ++ y' ++ s' : Word) =
      ((op &&& o) ++ (b &&& b') ++ (d &&& d') ++ (c &&& c') ++ (k &&& k') ++ (n &&& n') ++ (0#2 &&& z') ++
        (l &&& l') ++ (0#2 &&& y') ++ (s &&& s') : Word) := by
  have e1 := and_append (op ++ b ++ d ++ c ++ k ++ n ++ 0#2 ++ l ++ 0#2) (o ++ b' ++ d' ++ c' ++ k' ++ n' ++ z' ++ l' ++ y') s s'
  have e2 := and_append (op ++ b ++ d ++ c ++ k ++ n ++ 0#2 ++ l) (o ++ b' ++ d' ++ c' ++ k' ++ n' ++ z' ++ l') 0#2 y'
  have e3 := and_append (op ++ b ++ d ++ c ++ k ++ n ++ 0#2) (o ++ b' ++ d' ++ c' ++ k' ++ n' ++ z') l l'
  have e4 := and_append (op ++ b ++ d ++ c ++ k ++ n) (o ++ b' ++ d' ++ c' ++ k' ++ n') 0#2 z'
  have e5 := and_append (op ++ b ++ d ++ c ++ k) (o ++ b' ++ d' ++ c' ++ k') n n'
  have e6 := and_append (op ++ b ++ d ++ c) (o ++ b' ++ d' ++ c') k k'
  have e7 := and_append (op ++ b ++ d) (o ++ b' ++ d') c c'
  have e8 := and_append (op ++ b) (o ++ b') d d'
  rw [and_append op o b b'] at e8
  rw [e8] at e7
  rw [e7] at e6
  rw [e6] at e5
  rw [e5] at e4
  rw [e4] at e3
  rw [e3] at e2
  rw [e2] at e1
  exact e1

/-- `formatF_and` for a mask and a value given as words. -/
theorem formatF_and_mask {op o : BitVec 8} {b b' d d' c c' : BitVec 1} {k k' : BitVec 3} {n n' z' : BitVec 2}
    {l l' : BitVec 6} {y' : BitVec 2} {s s' : BitVec 6} {mask value : Word}
    (hm : mask = (o ++ b' ++ d' ++ c' ++ k' ++ n' ++ z' ++ l' ++ y' ++ s' : Word))
    (hv : value = ((op &&& o) ++ (b &&& b') ++ (d &&& d') ++ (c &&& c') ++ (k &&& k') ++ (n &&& n') ++ (0#2 &&& z') ++
      (l &&& l') ++ (0#2 &&& y') ++ (s &&& s') : Word)) :
    formatF op b d c k n l s &&& mask = value := by rw [hm, hv, formatF_and]

/-- A word of format F as the `or` of its fields in place, the form the operation rules print encodings in. -/
theorem formatF_eq_or (op : BitVec 8) (b d c : BitVec 1) (k : BitVec 3) (n : BitVec 2) (l s : BitVec 6) :
    formatF op b d c k n l s =
      op.setWidth 32 <<< 24 ||| b.setWidth 32 <<< 23 ||| d.setWidth 32 <<< 22 ||| c.setWidth 32 <<< 21 |||
        k.setWidth 32 <<< 18 ||| n.setWidth 32 <<< 16 ||| l.setWidth 32 <<< 8 ||| s.setWidth 32 := by
  apply BitVec.eq_of_getLsbD_eq
  intro i hi
  simp only [formatF, BitVec.getLsbD_append, BitVec.getLsbD_or, BitVec.getLsbD_shiftLeft, BitVec.getLsbD_setWidth]
  interval_cases i <;> simp

section Fields

variable (op : BitVec 8) (b d c : BitVec 1) (k : BitVec 3) (n : BitVec 2) (l s : BitVec 6)

@[simp] theorem opField_formatF : opField (formatF op b d c k n l s) = op := by
  show (op ++ b ++ d ++ c ++ k ++ n ++ 0#2 ++ l ++ 0#2 ++ s).extractLsb' 24 8 = op
  simp only [BitVec.extractLsb'_append_eq_ite]; simp

@[simp] theorem bankField_formatF : bankField (formatF op b d c k n l s) = if b = 1#1 then 1 else 0 := by
  have e : (formatF op b d c k n l s).extractLsb' 23 1 = b := by
    show (op ++ b ++ d ++ c ++ k ++ n ++ 0#2 ++ l ++ 0#2 ++ s).extractLsb' 23 1 = b
    simp only [BitVec.extractLsb'_append_eq_ite]; simp
  rw [bankField, e]

@[simp] theorem dirField_formatF : dirField (formatF op b d c k n l s) = if d = 1#1 then .down else .up := by
  have e : (formatF op b d c k n l s).extractLsb' 22 1 = d := by
    show (op ++ b ++ d ++ c ++ k ++ n ++ 0#2 ++ l ++ 0#2 ++ s).extractLsb' 22 1 = d
    simp only [BitVec.extractLsb'_append_eq_ite]; simp
  rw [dirField, e]

@[simp] theorem ceilField_formatF : ceilField (formatF op b d c k n l s) = if c = 1#1 then .c1500 else .c600 := by
  have e : (formatF op b d c k n l s).extractLsb' 21 1 = c := by
    show (op ++ b ++ d ++ c ++ k ++ n ++ 0#2 ++ l ++ 0#2 ++ s).extractLsb' 21 1 = c
    simp only [BitVec.extractLsb'_append_eq_ite]; simp
  rw [ceilField, e]

@[simp] theorem colorField_formatF : colorField (formatF op b d c k n l s) = k := by
  show (op ++ b ++ d ++ c ++ k ++ n ++ 0#2 ++ l ++ 0#2 ++ s).extractLsb' 18 3 = k
  simp only [BitVec.extractLsb'_append_eq_ite]; simp

@[simp] theorem bandBits_formatF : (formatF op b d c k n l s).extractLsb' 16 2 = n := by
  show (op ++ b ++ d ++ c ++ k ++ n ++ 0#2 ++ l ++ 0#2 ++ s).extractLsb' 16 2 = n
  simp only [BitVec.extractLsb'_append_eq_ite]; simp

@[simp] theorem lenField_formatF : lenField (formatF op b d c k n l s) = l := by
  show (op ++ b ++ d ++ c ++ k ++ n ++ 0#2 ++ l ++ 0#2 ++ s).extractLsb' 8 6 = l
  simp only [BitVec.extractLsb'_append_eq_ite]; simp

@[simp] theorem startField_formatF : startField (formatF op b d c k n l s) = s := by
  show (op ++ b ++ d ++ c ++ k ++ n ++ 0#2 ++ l ++ 0#2 ++ s).extractLsb' 0 6 = s
  simp only [BitVec.extractLsb'_append_eq_ite]; simp

end Fields

end Sys2Proof
end

