-- ==== Sys2Proof/Laws/Ops.lean ====
section
/-! SUPPORT. What the shared operations do, each said once: loops and arrays, sums, wraps and roundings, the integer root,
painting, segments, the program ROM. Later proofs cite these instead of unfolding the operations. -/

namespace Sys2Proof.Machine

/-! ### Loops and arrays -/

@[simp] theorem forUp_zero {α : Type} (f : Nat → α → α) (a : α) : forUp 0 f a = a := rfl

@[simp] theorem forUp_succ {α : Type} (n : Nat) (f : Nat → α → α) (a : α) : forUp (n + 1) f a = f n (forUp n f a) := rfl

/-- The rule of the counted loop: what holds before turn 0 and is carried by every turn holds at the end. -/
theorem forUp_induction {α : Type} {P : Nat → α → Prop} {n : Nat} {f : Nat → α → α} {a : α} (start : P 0 a)
    (turn : ∀ i x, i < n → P i x → P (i + 1) (f i x)) : P n (forUp n f a) := by
  induction n with
  | zero => exact start
  | succ n ih => exact turn n _ (Nat.lt_succ_self n) (ih fun i x h => turn i x (Nat.lt_succ_of_lt h))

/-- Element `k` of `listFrom f lo n` is `f (lo + k)`. -/
theorem getElem?_listFrom {α : Type} (f : Nat → α) (lo n k : Nat) :
    (listFrom f lo n)[k]? = if k < n then some (f (lo + k)) else none := by
  induction n generalizing lo k with
  | zero => simp [listFrom]
  | succ n ih =>
    cases k with
    | zero => simp [listFrom]
    | succ k => simp [listFrom, ih, Nat.add_comm, Nat.add_left_comm]

/-- Element `i` of a tabulated array. -/
@[simp] theorem getElem_tabulate {α : Type} (n : Nat) (f : Nat → α) (i : Nat) (h : i < n) : (tabulate n f)[i] = f i := by
  have e : (listFrom f 0 n)[i]? = some (f i) := by rw [getElem?_listFrom, if_pos h, Nat.zero_add]
  have l : i < (listFrom f 0 n).length := by rw [length_listFrom]; exact h
  rw [List.getElem?_eq_getElem l] at e
  exact Option.some.inj e

/-- Reading an element in range as a signed number. -/
@[simp] theorem signedAt_eq (v : Vector Word 128) {i : Nat} (h : i < 128) : signedAt v i = v[i].toInt := by
  simp [signedAt, Vector.getElem?_eq_getElem h]

/-- Reading a sample in range. -/
@[simp] theorem rawAt_eq (v : Vector RawSample 128) {i : Nat} (h : i < 128) : rawAt v i = v[i].toNat := by
  simp [rawAt, Vector.getElem?_eq_getElem h]

/-- The counted sum is the finite sum. -/
theorem sumUp_eq_sum (n : Nat) (f : Nat → Int) : sumUp n f = ∑ i ∈ Finset.range n, f i := by
  induction n with
  | zero => simp [sumUp]
  | succ n ih =>
    have : sumUp (n + 1) f = sumUp n f + f n := rfl
    rw [this, ih, Finset.sum_range_succ]

/-- Painting: the painted places hold the colour, every other place what it held. -/
theorem getElem_paint (pix : Vector Pixel 60) (place : Nat → Nat) (n : Nat) (c : Pixel) (p : Nat) (hp : p < 60) :
    (paint pix place n c)[p] = if ∃ i, i < n ∧ place i = p then c else pix[p] := by
  induction n with
  | zero => simp [paint]
  | succ n ih =>
    have e : paint pix place (n + 1) c = (paint pix place n c).setIfInBounds (place n) c := rfl
    rw [e, Vector.getElem_setIfInBounds hp, ih]
    by_cases h : place n = p
    · simp only [h, if_true]
      rw [if_pos ⟨n, Nat.lt_succ_self n, h⟩]
    · have : (∃ i, i < n + 1 ∧ place i = p) ↔ ∃ i, i < n ∧ place i = p := by
        constructor
        · rintro ⟨i, hi, at_p⟩
          rcases Nat.lt_succ_iff_lt_or_eq.mp hi with hi | rfl
          · exact ⟨i, hi, at_p⟩
          · exact absurd at_p h
        · rintro ⟨i, hi, at_p⟩
          exact ⟨i, Nat.lt_succ_of_lt hi, at_p⟩
      simp only [h, if_false, this]

/-! ### Wraps, roundings, roots -/

/-- `wrap_s32` is congruent to its argument: the balanced residue modulo `2^32` (R13). -/
theorem wrapS32_toInt (v : Int) : (wrapS32 v).toInt = v.bmod (2 ^ 32) := by simp [wrapS32]

/-- `wrap_s32` changes no value of the signed 32-bit range (R13). -/
theorem wrapS32_toInt_of_range {v : Int} (lo : -2 ^ 31 ≤ v) (hi : v < 2 ^ 31) : (wrapS32 v).toInt = v := by
  rw [wrapS32_toInt, Int.bmod_eq_of_le (by omega) (by omega)]

/-- Writing back the number a word reads as gives the word. -/
@[simp] theorem wrapS32_of_toInt (w : Word) : wrapS32 w.toInt = w := by simp [wrapS32]

/-- `wrap_u32` of a natural number is its residue (R13). -/
theorem wrapU32_natCast (n : Nat) : wrapU32 (n : Int) = BitVec.ofNat 32 n := by simp [wrapU32]

/-- `wrap_u32` changes no value below `2^32` (R13). -/
theorem wrapU32_toNat_of_lt {n : Nat} (h : n < 2 ^ 32) : (wrapU32 (n : Int)).toNat = n := by
  rw [wrapU32_natCast, BitVec.toNat_ofNat, Nat.mod_eq_of_lt h]

/-- `round_q15` is the nearest integer to `v / 32768`, a tie going up (R14). -/
theorem roundQ15_spec (v : Int) : 32768 * roundQ15 v ≤ v + 16384 ∧ v + 16384 < 32768 * roundQ15 v + 32768 := by
  rw [roundQ15_eq]
  omega

/-- A product by 1.0 in Q15 is exact. -/
@[simp] theorem roundQ15_one (v : Int) : roundQ15 (v * 32768) = v := by
  rw [roundQ15_eq]
  omega

/-- The digits of the root keep `r^2 <= n < (r + 2^k)^2`. -/
theorem isqrtDigits_spec (n : Nat) : ∀ k r : Nat, r * r ≤ n → n < (r + 2 ^ k) * (r + 2 ^ k) →
    isqrtDigits n k r * isqrtDigits n k r ≤ n ∧ n < (isqrtDigits n k r + 1) * (isqrtDigits n k r + 1)
  | 0, r, lo, hi => by simpa [isqrtDigits] using ⟨lo, hi⟩
  | k + 1, r, lo, hi => by
    unfold isqrtDigits
    have e : r + 2 ^ (k + 1) = r + 2 ^ k + 2 ^ k := by rw [pow_succ]; omega
    split
    · rename_i h
      exact isqrtDigits_spec n k (r + 2 ^ k) h (e ▸ hi)
    · rename_i h
      exact isqrtDigits_spec n k r lo (Nat.lt_of_not_le h)

/-- `isqrt(n)` is the greatest `m` with `m * m <= n` (R11). -/
theorem isqrt_spec (n : Nat) : isqrt n * isqrt n ≤ n ∧ n < (isqrt n + 1) * (isqrt n + 1) := by
  refine isqrtDigits_spec n (n.log2 / 2 + 1) 0 (Nat.zero_le n) ?_
  have h : n < 2 ^ (n.log2 + 1) := Nat.lt_log2_self
  refine lt_of_lt_of_le h ?_
  rw [Nat.zero_add, ← pow_add]
  exact Nat.pow_le_pow_right (by decide) (by omega)

/-- The model's root is the library's. -/
theorem isqrt_eq_sqrt (n : Nat) : isqrt n = n.sqrt :=
  Nat.eq_sqrt.mpr (isqrt_spec n)

/-! ### The ports -/

/-- A reading the environment has ready is the one returned (R90; log 4). -/
theorem sampleReading_of_lt (s : State) {i : Nat} (h : i < s.samples.length) : sampleReading s i = s.samples[i] := by
  simp [sampleReading, List.getElem?_eq_getElem h]

/-- Without a queued reading the free value of its number is returned (U11; log 4). -/
theorem sampleReading_of_le (s : State) {i : Nat} (h : s.samples.length ≤ i) :
    sampleReading s i = Config.sampleDraw (s.samplesTaken + i) := by
  simp [sampleReading, List.getElem?_eq_none h]

/-! ### Segments -/

/-- The footprint check of an upward segment, as R185 writes it. -/
theorem segFits_up {start : BitVec 6} {n : Nat} : segFits .up start n = true ↔ start.toNat + n ≤ 60 :=
  decide_eq_true_iff

/-- The footprint check of a downward segment: neither end leaves 0 to 59 (R140, R185; log 18). -/
theorem segFits_down {start : BitVec 6} {n : Nat} :
    segFits .down start n = true ↔ n ≤ start.toNat + 1 ∧ start.toNat < 60 := by
  rw [segFits, Bool.and_eq_true, decide_eq_true_iff, decide_eq_true_iff]

/-- A segment that fits lies inside the pixel RAM (R140). -/
theorem seg_lt_of_fits {dir : Dir} {start : BitVec 6} {n i : Nat} (h : segFits dir start n = true) (hi : i < n) :
    seg dir start i < 60 := by
  cases dir
  · have h := segFits_up.mp h
    show start.toNat + i < 60
    omega
  · have h := segFits_down.mp h
    show start.toNat - i < 60
    omega

/-- The sweep's advance: nothing, or the next index and the time of this reading (R153). -/
theorem sweepAdvance_cases (now : Word) (bank : Bank) (len : Nat) (s : State) :
    sweepAdvance now bank len s = s ∨
    sweepAdvance now bank len s =
      { s with sweepPos := BitVec.ofNat 6 ((s.sweepPos.toNat + 1) % len), sweepT0 := now } := by
  unfold sweepAdvance
  split
  · exact .inl rfl
  · split
    · exact .inr rfl
    · exact .inl rfl

/-! ### The program ROM -/

theorem Memory.lookup_erase_ne (m : Memory) {a b : Nat} (h : b ≠ a) :
    Memory.lookup (Memory.erase m a) b = Memory.lookup m b := by
  induction m with
  | nil => rfl
  | cons c t ih =>
    obtain ⟨k, w⟩ := c
    by_cases hk : k = a
    · subst hk; simp [Memory.erase, Memory.lookup, Ne.symm h]
    · simp [Memory.erase, hk, Memory.lookup, ih]

theorem Memory.lookup_eq_none (m : Memory) (a : Nat) (h : ∀ c ∈ m, a < c.1) : Memory.lookup m a = none := by
  induction m with
  | nil => rfl
  | cons c t ih =>
    obtain ⟨k, w⟩ := c
    have hk : a < k := h (k, w) (by simp)
    simp only [Memory.lookup, Nat.ne_of_gt hk, if_false]
    exact ih fun c hc => h c (by simp [hc])

/-- The canonical form of a memory with a first entry. -/
theorem Memory.wf_cons {k : Nat} {w : Word} {t : Memory} : Memory.wf ((k, w) :: t) = true ↔
    k < 256 ∧ w ≠ Memory.unlisted k ∧ (∀ c ∈ t, k < c.1) ∧ Memory.wf t = true := by
  simp [Memory.wf, and_assoc]

theorem Memory.lookup_erase_self {m : Memory} (h : Memory.wf m = true) (a : Nat) :
    Memory.lookup (Memory.erase m a) a = none := by
  induction m with
  | nil => rfl
  | cons c t ih =>
    obtain ⟨k, w⟩ := c
    obtain ⟨-, -, gt, wt⟩ := Memory.wf_cons.mp h
    by_cases hk : k = a
    · subst hk
      simpa [Memory.erase] using Memory.lookup_eq_none t k gt
    · simp [Memory.erase, hk, Memory.lookup, ih wt]

theorem Memory.lookup_insert_self (m : Memory) (a : Nat) (w : Word) : Memory.lookup (Memory.insert m a w) a = some w := by
  induction m with
  | nil => simp [Memory.insert, Memory.lookup]
  | cons c t ih =>
    obtain ⟨k, v⟩ := c
    unfold Memory.insert
    split
    · simp [Memory.lookup]
    · split
      · simp [Memory.lookup]
      · rename_i h
        simp [Memory.lookup, Ne.symm h, ih]

theorem Memory.lookup_insert_ne (m : Memory) {a b : Nat} (w : Word) (h : b ≠ a) :
    Memory.lookup (Memory.insert m a w) b = Memory.lookup m b := by
  induction m with
  | nil => simp [Memory.insert, Memory.lookup, Ne.symm h]
  | cons c t ih =>
    obtain ⟨k, v⟩ := c
    unfold Memory.insert
    split
    · simp [Memory.lookup, Ne.symm h]
    · split
      · rename_i e
        subst e
        simp [Memory.lookup, Ne.symm h]
      · simp [Memory.lookup, ih]

/-- A read of the word just written gives it. -/
theorem Memory.read_write_self {m : Memory} (h : Memory.wf m = true) (a : Nat) (w : Word) :
    Memory.read (Memory.write m a w) a = w := by
  unfold Memory.write Memory.read
  split
  · rename_i e
    rw [Memory.lookup_erase_self h, e, Option.getD_none]
  · rw [Memory.lookup_insert_self, Option.getD_some]

/-- A write leaves every other address as it was. -/
theorem Memory.read_write_ne (m : Memory) {a b : Nat} (w : Word) (h : b ≠ a) :
    Memory.read (Memory.write m a w) b = Memory.read m b := by
  unfold Memory.write Memory.read
  split
  · rw [Memory.lookup_erase_ne m h]
  · rw [Memory.lookup_insert_ne m w h]

theorem Memory.lt_of_mem_erase {m : Memory} {a k : Nat} (h : ∀ c ∈ m, k < c.1) :
    ∀ c ∈ Memory.erase m a, k < c.1 := by
  induction m with
  | nil => simp [Memory.erase]
  | cons c t ih =>
    obtain ⟨j, w⟩ := c
    have ht : ∀ c ∈ t, k < c.1 := fun c hc => h c (by simp [hc])
    unfold Memory.erase
    split
    · exact ht
    · intro c hc
      rcases List.mem_cons.mp hc with rfl | hc
      · exact h _ (by simp)
      · exact ih ht c hc

theorem Memory.lt_of_mem_insert {m : Memory} {a k : Nat} {w : Word} (h : ∀ c ∈ m, k < c.1) (ha : k < a) :
    ∀ c ∈ Memory.insert m a w, k < c.1 := by
  induction m with
  | nil => simpa [Memory.insert] using ha
  | cons c t ih =>
    obtain ⟨j, v⟩ := c
    have ht : ∀ c ∈ t, k < c.1 := fun c hc => h c (by simp [hc])
    have hj : k < j := h (j, v) (by simp)
    unfold Memory.insert
    split
    · intro c hc
      rcases List.mem_cons.mp hc with rfl | hc
      · exact ha
      · exact h c hc
    · split
      · intro c hc
        rcases List.mem_cons.mp hc with rfl | hc
        · exact ha
        · exact ht c hc
      · intro c hc
        rcases List.mem_cons.mp hc with rfl | hc
        · exact hj
        · exact ih ht c hc

theorem Memory.erase_wf {m : Memory} (h : Memory.wf m = true) (a : Nat) : Memory.wf (Memory.erase m a) = true := by
  induction m with
  | nil => rfl
  | cons c t ih =>
    obtain ⟨k, w⟩ := c
    obtain ⟨bound, ne, gt, wt⟩ := Memory.wf_cons.mp h
    unfold Memory.erase
    split
    · exact wt
    · exact Memory.wf_cons.mpr ⟨bound, ne, Memory.lt_of_mem_erase gt, ih wt⟩

theorem Memory.insert_wf {m : Memory} (h : Memory.wf m = true) {a : Nat} {w : Word} (ha : a < 256)
    (hw : w ≠ Memory.unlisted a) : Memory.wf (Memory.insert m a w) = true := by
  induction m with
  | nil => exact Memory.wf_cons.mpr ⟨ha, hw, by simp, rfl⟩
  | cons c t ih =>
    obtain ⟨k, v⟩ := c
    obtain ⟨bound, ne, gt, wt⟩ := Memory.wf_cons.mp h
    unfold Memory.insert
    split
    · rename_i lt
      refine Memory.wf_cons.mpr ⟨ha, hw, fun c hc => ?_, h⟩
      rcases List.mem_cons.mp hc with rfl | hc
      · exact lt
      · exact Nat.lt_trans lt (gt c hc)
    · split
      · rename_i e
        subst e
        exact Memory.wf_cons.mpr ⟨ha, hw, gt, wt⟩
      · rename_i nlt nea
        exact Memory.wf_cons.mpr ⟨bound, ne, Memory.lt_of_mem_insert gt (by omega), ih wt⟩

/-- Every write keeps the canonical form. -/
theorem Memory.write_wf {m : Memory} (h : Memory.wf m = true) {a : Nat} (w : Word) (ha : a < 256) :
    Memory.wf (Memory.write m a w) = true := by
  unfold Memory.write
  split
  · exact Memory.erase_wf h a
  · rename_i hw
    exact Memory.insert_wf h ha hw

/-- The reset state's program memory has the canonical form. -/
theorem reset_prog_wf : Memory.wf State.reset.cfg.prog = true := rfl

end Sys2Proof.Machine
end

