-- ==== Sys2Proof/Laws/PerInstr.lean ====
section
/-! SUPPORT. Statements about every operation as syntax, one lemma per constructor (LAWS.json names the families). -/

namespace Sys2Proof.Laws

/-- The encoder writes exactly the bits the opcode map fixes: masked with its row's mask, an operation's word is the
row's match (R72, R74). -/
def RowMatch.Statement (i : Instr) : Prop := encode i &&& (opcodeRow i).mask = (opcodeRow i).value

theorem RowMatch.nop : RowMatch.Statement .nop := by unfold RowMatch.Statement; decide
theorem RowMatch.halt : RowMatch.Statement .halt := by unfold RowMatch.Statement; decide
theorem RowMatch.endc : RowMatch.Statement .endc := by unfold RowMatch.Statement; decide
theorem RowMatch.dispatch : RowMatch.Statement .dispatch := by unfold RowMatch.Statement; decide
theorem RowMatch.ret : RowMatch.Statement .ret := by unfold RowMatch.Statement; decide
theorem RowMatch.acq : RowMatch.Statement .acq := by unfold RowMatch.Statement; decide
theorem RowMatch.reload : RowMatch.Statement .reload := by unfold RowMatch.Statement; decide
theorem RowMatch.dcr : RowMatch.Statement .dcr := by unfold RowMatch.Statement; decide
theorem RowMatch.iir : RowMatch.Statement .iir := by unfold RowMatch.Statement; decide
theorem RowMatch.win : RowMatch.Statement .win := by unfold RowMatch.Statement; decide
theorem RowMatch.fft : RowMatch.Statement .fft := by unfold RowMatch.Statement; decide
theorem RowMatch.mag : RowMatch.Statement .mag := by unfold RowMatch.Statement; decide
theorem RowMatch.band (bank : Bank) : RowMatch.Statement (.band bank) := by
  unfold RowMatch.Statement; revert bank; decide
theorem RowMatch.nrg (bank : Bank) : RowMatch.Statement (.nrg bank) := by
  unfold RowMatch.Statement; revert bank; decide
theorem RowMatch.norm (bank : Bank) : RowMatch.Statement (.norm bank) := by
  unfold RowMatch.Statement; revert bank; decide
theorem RowMatch.smooth : RowMatch.Statement .smooth := by unfold RowMatch.Statement; decide
theorem RowMatch.clear : RowMatch.Statement .clear := by unfold RowMatch.Statement; decide
theorem RowMatch.tier (bank : Bank) (dir : Dir) (color : BitVec 3) (band : Band) (start : BitVec 6) :
    RowMatch.Statement (.tier bank dir color band start) :=
  formatF_and_mask (o := 0xff) (b' := 0) (d' := 0) (c' := 1) (k' := 0) (n' := 0) (z' := 3) (l' := 0x3f) (y' := 3) (s' := 0)
    rfl (by simp [opcodeRow])
theorem RowMatch.ebkt (bank : Bank) (dir : Dir) (color : BitVec 3) (len start : BitVec 6) :
    RowMatch.Statement (.ebkt bank dir color len start) :=
  formatF_and_mask (o := 0xff) (b' := 0) (d' := 0) (c' := 1) (k' := 0) (n' := 3) (z' := 3) (l' := 0) (y' := 3) (s' := 0)
    rfl (by simp [opcodeRow])
theorem RowMatch.wash (bank : Bank) (ceil : Ceil) (color : BitVec 3) (len start : BitVec 6) :
    RowMatch.Statement (.wash bank ceil color len start) :=
  formatF_and_mask (o := 0xff) (b' := 0) (d' := 1) (c' := 0) (k' := 0) (n' := 3) (z' := 3) (l' := 0) (y' := 3) (s' := 0)
    rfl (by simp [opcodeRow])
theorem RowMatch.rawc (color : BitVec 3) (start : BitVec 6) : RowMatch.Statement (.rawc color start) :=
  formatF_and_mask (o := 0xff) (b' := 1) (d' := 1) (c' := 1) (k' := 0) (n' := 3) (z' := 3) (l' := 0x3f) (y' := 3) (s' := 0)
    rfl (by simp [opcodeRow])
theorem RowMatch.sweep (bank : Bank) (ceil : Ceil) (color : BitVec 3) (len start : BitVec 6) :
    RowMatch.Statement (.sweep bank ceil color len start) :=
  formatF_and_mask (o := 0xff) (b' := 0) (d' := 1) (c' := 0) (k' := 0) (n' := 3) (z' := 3) (l' := 0) (y' := 3) (s' := 0)
    rfl (by simp [opcodeRow])
theorem RowMatch.commit : RowMatch.Statement .commit := by unfold RowMatch.Statement; decide

end Sys2Proof.Laws
end

