-- ==== Sys2Proof/Laws/State.lean ====
section
/-! SUPPORT. The fields of State after each named update: one lemma per field per update, true by rfl, so that no later
proof unfolds an update. -/

namespace Sys2Proof.Machine

variable (s : State)

/-! ### `advance`: `PC` moves on (R27) -/

@[simp] theorem advance_pc : (advance s).pc = s.pc + 1 := rfl
@[simp] theorem advance_lr : (advance s).lr = s.lr := rfl
@[simp] theorem advance_lrv : (advance s).lrv = s.lrv := rfl
@[simp] theorem advance_run : (advance s).run = s.run := rfl
@[simp] theorem advance_cause : (advance s).cause = s.cause := rfl
@[simp] theorem advance_faultPc : (advance s).faultPc = s.faultPc := rfl
@[simp] theorem advance_mode : (advance s).mode = s.mode := rfl
@[simp] theorem advance_band : (advance s).band = s.band := rfl
@[simp] theorem advance_energy : (advance s).energy = s.energy := rfl
@[simp] theorem advance_avg : (advance s).avg = s.avg := rfl
@[simp] theorem advance_count : (advance s).count = s.count := rfl
@[simp] theorem advance_sweepPos : (advance s).sweepPos = s.sweepPos := rfl
@[simp] theorem advance_sweepT0 : (advance s).sweepT0 = s.sweepT0 := rfl
@[simp] theorem advance_raw : (advance s).raw = s.raw := rfl
@[simp] theorem advance_re : (advance s).re = s.re := rfl
@[simp] theorem advance_im : (advance s).im = s.im := rfl
@[simp] theorem advance_pix : (advance s).pix = s.pix := rfl
@[simp] theorem advance_cfg : (advance s).cfg = s.cfg := rfl
@[simp] theorem advance_samples : (advance s).samples = s.samples := rfl
@[simp] theorem advance_samplesTaken : (advance s).samplesTaken = s.samplesTaken := rfl
@[simp] theorem advance_times : (advance s).times = s.times := rfl
@[simp] theorem advance_timesTaken : (advance s).timesTaken = s.timesTaken := rfl
@[simp] theorem advance_frames : (advance s).frames = s.frames := rfl
@[simp] theorem advance_epoch : (advance s).epoch = s.epoch := rfl

/-! ### `raise`: taking a fault (R184) -/

@[simp] theorem raise_pc (c : Cause) : (raise c s).pc = s.pc := rfl
@[simp] theorem raise_lr (c : Cause) : (raise c s).lr = s.lr := rfl
@[simp] theorem raise_lrv (c : Cause) : (raise c s).lrv = s.lrv := rfl
@[simp] theorem raise_run (c : Cause) : (raise c s).run = .faulted := rfl
@[simp] theorem raise_cause (c : Cause) : (raise c s).cause = c := rfl
@[simp] theorem raise_faultPc (c : Cause) : (raise c s).faultPc = s.pc := rfl
@[simp] theorem raise_mode (c : Cause) : (raise c s).mode = s.mode := rfl
@[simp] theorem raise_band (c : Cause) : (raise c s).band = s.band := rfl
@[simp] theorem raise_energy (c : Cause) : (raise c s).energy = s.energy := rfl
@[simp] theorem raise_avg (c : Cause) : (raise c s).avg = s.avg := rfl
@[simp] theorem raise_count (c : Cause) : (raise c s).count = s.count := rfl
@[simp] theorem raise_sweepPos (c : Cause) : (raise c s).sweepPos = s.sweepPos := rfl
@[simp] theorem raise_sweepT0 (c : Cause) : (raise c s).sweepT0 = s.sweepT0 := rfl
@[simp] theorem raise_raw (c : Cause) : (raise c s).raw = s.raw := rfl
@[simp] theorem raise_re (c : Cause) : (raise c s).re = s.re := rfl
@[simp] theorem raise_im (c : Cause) : (raise c s).im = s.im := rfl
@[simp] theorem raise_pix (c : Cause) : (raise c s).pix = s.pix := rfl
@[simp] theorem raise_cfg (c : Cause) : (raise c s).cfg = s.cfg := rfl
@[simp] theorem raise_samples (c : Cause) : (raise c s).samples = s.samples := rfl
@[simp] theorem raise_samplesTaken (c : Cause) : (raise c s).samplesTaken = s.samplesTaken := rfl
@[simp] theorem raise_times (c : Cause) : (raise c s).times = s.times := rfl
@[simp] theorem raise_timesTaken (c : Cause) : (raise c s).timesTaken = s.timesTaken := rfl
@[simp] theorem raise_frames (c : Cause) : (raise c s).frames = s.frames := rfl
@[simp] theorem raise_epoch (c : Cause) : (raise c s).epoch = s.epoch := rfl

/-! ### `consumeSamples`: sample readings consumed (R90) -/

@[simp] theorem consumeSamples_pc (n : Nat) : (consumeSamples n s).pc = s.pc := rfl
@[simp] theorem consumeSamples_lr (n : Nat) : (consumeSamples n s).lr = s.lr := rfl
@[simp] theorem consumeSamples_lrv (n : Nat) : (consumeSamples n s).lrv = s.lrv := rfl
@[simp] theorem consumeSamples_run (n : Nat) : (consumeSamples n s).run = s.run := rfl
@[simp] theorem consumeSamples_cause (n : Nat) : (consumeSamples n s).cause = s.cause := rfl
@[simp] theorem consumeSamples_faultPc (n : Nat) : (consumeSamples n s).faultPc = s.faultPc := rfl
@[simp] theorem consumeSamples_mode (n : Nat) : (consumeSamples n s).mode = s.mode := rfl
@[simp] theorem consumeSamples_band (n : Nat) : (consumeSamples n s).band = s.band := rfl
@[simp] theorem consumeSamples_energy (n : Nat) : (consumeSamples n s).energy = s.energy := rfl
@[simp] theorem consumeSamples_avg (n : Nat) : (consumeSamples n s).avg = s.avg := rfl
@[simp] theorem consumeSamples_count (n : Nat) : (consumeSamples n s).count = s.count := rfl
@[simp] theorem consumeSamples_sweepPos (n : Nat) : (consumeSamples n s).sweepPos = s.sweepPos := rfl
@[simp] theorem consumeSamples_sweepT0 (n : Nat) : (consumeSamples n s).sweepT0 = s.sweepT0 := rfl
@[simp] theorem consumeSamples_raw (n : Nat) : (consumeSamples n s).raw = s.raw := rfl
@[simp] theorem consumeSamples_re (n : Nat) : (consumeSamples n s).re = s.re := rfl
@[simp] theorem consumeSamples_im (n : Nat) : (consumeSamples n s).im = s.im := rfl
@[simp] theorem consumeSamples_pix (n : Nat) : (consumeSamples n s).pix = s.pix := rfl
@[simp] theorem consumeSamples_cfg (n : Nat) : (consumeSamples n s).cfg = s.cfg := rfl
@[simp] theorem consumeSamples_samples (n : Nat) : (consumeSamples n s).samples = s.samples.drop n := rfl
@[simp] theorem consumeSamples_samplesTaken (n : Nat) : (consumeSamples n s).samplesTaken = s.samplesTaken + n := rfl
@[simp] theorem consumeSamples_times (n : Nat) : (consumeSamples n s).times = s.times := rfl
@[simp] theorem consumeSamples_timesTaken (n : Nat) : (consumeSamples n s).timesTaken = s.timesTaken := rfl
@[simp] theorem consumeSamples_frames (n : Nat) : (consumeSamples n s).frames = s.frames := rfl
@[simp] theorem consumeSamples_epoch (n : Nat) : (consumeSamples n s).epoch = s.epoch := rfl

/-! ### `consumeTime`: a time reading consumed (R192) -/

@[simp] theorem consumeTime_pc : (consumeTime s).pc = s.pc := rfl
@[simp] theorem consumeTime_lr : (consumeTime s).lr = s.lr := rfl
@[simp] theorem consumeTime_lrv : (consumeTime s).lrv = s.lrv := rfl
@[simp] theorem consumeTime_run : (consumeTime s).run = s.run := rfl
@[simp] theorem consumeTime_cause : (consumeTime s).cause = s.cause := rfl
@[simp] theorem consumeTime_faultPc : (consumeTime s).faultPc = s.faultPc := rfl
@[simp] theorem consumeTime_mode : (consumeTime s).mode = s.mode := rfl
@[simp] theorem consumeTime_band : (consumeTime s).band = s.band := rfl
@[simp] theorem consumeTime_energy : (consumeTime s).energy = s.energy := rfl
@[simp] theorem consumeTime_avg : (consumeTime s).avg = s.avg := rfl
@[simp] theorem consumeTime_count : (consumeTime s).count = s.count := rfl
@[simp] theorem consumeTime_sweepPos : (consumeTime s).sweepPos = s.sweepPos := rfl
@[simp] theorem consumeTime_sweepT0 : (consumeTime s).sweepT0 = s.sweepT0 := rfl
@[simp] theorem consumeTime_raw : (consumeTime s).raw = s.raw := rfl
@[simp] theorem consumeTime_re : (consumeTime s).re = s.re := rfl
@[simp] theorem consumeTime_im : (consumeTime s).im = s.im := rfl
@[simp] theorem consumeTime_pix : (consumeTime s).pix = s.pix := rfl
@[simp] theorem consumeTime_cfg : (consumeTime s).cfg = s.cfg := rfl
@[simp] theorem consumeTime_samples : (consumeTime s).samples = s.samples := rfl
@[simp] theorem consumeTime_samplesTaken : (consumeTime s).samplesTaken = s.samplesTaken := rfl
@[simp] theorem consumeTime_times : (consumeTime s).times = s.times.drop 1 := rfl
@[simp] theorem consumeTime_timesTaken : (consumeTime s).timesTaken = s.timesTaken + 1 := rfl
@[simp] theorem consumeTime_frames : (consumeTime s).frames = s.frames := rfl
@[simp] theorem consumeTime_epoch : (consumeTime s).epoch = s.epoch := rfl

/-! ### `frameCommit`: a frame handed to the sink (R158) -/

@[simp] theorem frameCommit_pc : (frameCommit s).pc = s.pc := rfl
@[simp] theorem frameCommit_lr : (frameCommit s).lr = s.lr := rfl
@[simp] theorem frameCommit_lrv : (frameCommit s).lrv = s.lrv := rfl
@[simp] theorem frameCommit_run : (frameCommit s).run = s.run := rfl
@[simp] theorem frameCommit_cause : (frameCommit s).cause = s.cause := rfl
@[simp] theorem frameCommit_faultPc : (frameCommit s).faultPc = s.faultPc := rfl
@[simp] theorem frameCommit_mode : (frameCommit s).mode = s.mode := rfl
@[simp] theorem frameCommit_band : (frameCommit s).band = s.band := rfl
@[simp] theorem frameCommit_energy : (frameCommit s).energy = s.energy := rfl
@[simp] theorem frameCommit_avg : (frameCommit s).avg = s.avg := rfl
@[simp] theorem frameCommit_count : (frameCommit s).count = s.count := rfl
@[simp] theorem frameCommit_sweepPos : (frameCommit s).sweepPos = s.sweepPos := rfl
@[simp] theorem frameCommit_sweepT0 : (frameCommit s).sweepT0 = s.sweepT0 := rfl
@[simp] theorem frameCommit_raw : (frameCommit s).raw = s.raw := rfl
@[simp] theorem frameCommit_re : (frameCommit s).re = s.re := rfl
@[simp] theorem frameCommit_im : (frameCommit s).im = s.im := rfl
@[simp] theorem frameCommit_pix : (frameCommit s).pix = s.pix := rfl
@[simp] theorem frameCommit_cfg : (frameCommit s).cfg = s.cfg := rfl
@[simp] theorem frameCommit_samples : (frameCommit s).samples = s.samples := rfl
@[simp] theorem frameCommit_samplesTaken : (frameCommit s).samplesTaken = s.samplesTaken := rfl
@[simp] theorem frameCommit_times : (frameCommit s).times = s.times := rfl
@[simp] theorem frameCommit_timesTaken : (frameCommit s).timesTaken = s.timesTaken := rfl
@[simp] theorem frameCommit_frames : (frameCommit s).frames = s.frames ++ [s.pix] := rfl
@[simp] theorem frameCommit_epoch : (frameCommit s).epoch = s.epoch := rfl

/-- An operation that ends with `pc <- PC + 1` answers its state advanced. -/
@[simp] theorem finish_eq : finish s = .next (advance s) := rfl

/-- Placing an operation leaves `PC` where it fetches. -/
@[simp] theorem withFetchWord_pc (nbits w : Nat) : (s.withFetchWord nbits w).pc = s.pc := rfl

/-- Placing an operation leaves the sequencer running. -/
@[simp] theorem withFetchWord_run (nbits w : Nat) : (s.withFetchWord nbits w).run = .running := rfl

/-- Placing an operation writes one word of the program ROM. -/
@[simp] theorem withFetchWord_prog (nbits w : Nat) :
    (s.withFetchWord nbits w).cfg.prog = Memory.write s.cfg.prog s.pc.toNat (BitVec.ofNat 32 (w % 2 ^ nbits)) := rfl

end Sys2Proof.Machine
end

