-- ==== Sys2Proof/Laws/Step.lean ====
section
/-! SUPPORT. What one step can do, said once (R165): nothing when the sequencer is stopped, a fault on an illegal word,
the decoded operation otherwise. -/

namespace Sys2Proof.Machine

/-- The inversion of `step`: every invariant of a step follows from these three cases. -/
theorem step_cases {s t : State} (h : step s = .next t) :
    (s.run ≠ .running ∧ t = s) ∨
    (s.run = .running ∧ (∃ why, decode (fetch s) = .illegal why) ∧ t = raise .illegalOp s) ∨
    (s.run = .running ∧ ∃ i, decode (fetch s) = .instr i ∧ exec i s = .next t) := by
  unfold step at h
  cases hr : s.run <;> simp only [hr] at h
  · cases hd : decode (fetch s) with
    | instr i =>
      simp only [hd] at h
      exact .inr (.inr ⟨rfl, i, rfl, h⟩)
    | illegal why =>
      simp only [hd, Host.Outcome.next.injEq] at h
      exact .inr (.inl ⟨rfl, ⟨why, rfl⟩, h.symm⟩)
  · exact .inl ⟨by simp, (Host.Outcome.next.inj h).symm⟩
  · exact .inl ⟨by simp, (Host.Outcome.next.inj h).symm⟩

/-- `finish` answers exactly the advanced state. -/
theorem finish_inj {s t : State} : finish s = .next t ↔ t = advance s := by
  simp [eq_comm]

/-- Executing a list operation by operation: the first, then the rest. -/
theorem execAll_cons {i : Instr} {rest : List Instr} {s t : State} (h : exec i s = .next t) :
    execAll (i :: rest) s = execAll rest t := by
  simp [execAll, h]

end Sys2Proof.Machine
end

