-- ==== Sys2Proof/Tests/Slice0.lean ====
section
/-! SUPPORT. The model's own tests. Expected results come from the spec's examples (the rule is named) or from a hand
calculation on its rules. The last part shows, for each statement with hypotheses, states and operands that meet them. -/

namespace Sys2Proof.Tests

open Sys2Proof.Machine

-- one theorem after the other: the kernel evaluates these, and many at once need more threads than the memory holds
set_option Elab.async false

/-! ### Well-formedness: one refused term for each check -/

theorem test_wf_refuses_ebkt_len_0 : wellFormed (.ebkt 0 .up 2 0 0) = false := by decide
theorem test_wf_refuses_wash_len_0 : wellFormed (.wash 0 .c600 3 0 0) = false := by decide
theorem test_wf_refuses_sweep_len_0 : wellFormed (.sweep 0 .c600 7 0 16) = false := by decide
theorem test_wf_accepts_len_1_and_63 :
    wellFormed (.ebkt 0 .up 2 1 63) = true ∧ wellFormed (.wash 1 .c1500 3 63 63) = true := by decide

/-! ### Decoding: every operation's word, written out bit by bit in the pattern of R71 -/

theorem test_decode_nop : decode 0b00000000000000000000000000000000 = .instr .nop := by decide
theorem test_decode_halt : decode 0b00000001000000000000000000000000 = .instr .halt := by decide
theorem test_decode_endc : decode 0b00000010000000000000000000000000 = .instr .endc := by decide
theorem test_decode_dispatch : decode 0b00000011000000000000000000000000 = .instr .dispatch := by decide
theorem test_decode_ret : decode 0b00000100000000000000000000000000 = .instr .ret := by decide
theorem test_decode_acq : decode 0b00010000000000000000000000000000 = .instr .acq := by decide
theorem test_decode_reload : decode 0b00010001000000000000000000000000 = .instr .reload := by decide
theorem test_decode_dcr : decode 0b00010010000000000000000000000000 = .instr .dcr := by decide
theorem test_decode_iir : decode 0b00010011000000000000000000000000 = .instr .iir := by decide
theorem test_decode_win : decode 0b00010100000000000000000000000000 = .instr .win := by decide
theorem test_decode_fft : decode 0b00010101000000000000000000000000 = .instr .fft := by decide
theorem test_decode_mag : decode 0b00010110000000000000000000000000 = .instr .mag := by decide
theorem test_decode_band : decode 0b00010111100000000000000000000000 = .instr (.band 1) := by decide
theorem test_decode_nrg : decode 0b00011000000000000000000000000000 = .instr (.nrg 0) := by decide
theorem test_decode_norm : decode 0b00011001100000000000000000000000 = .instr (.norm 1) := by decide
theorem test_decode_smooth : decode 0b00011010000000000000000000000000 = .instr .smooth := by decide
theorem test_decode_clear : decode 0b00100000000000000000000000000000 = .instr .clear := by decide
/-- `oooooooo b d c kkk nn 00 llllll 00 ssssss` with op 0x21, bank 1, down, colour 5, mid, start 43. -/
theorem test_decode_tier : decode 0b00100001110101010000000000101011 = .instr (.tier 1 .down 5 .mid 43) := by decide
/-- op 0x22, bank 1, up, colour 2, len 37, start 9. -/
theorem test_decode_ebkt : decode 0b00100010100010000010010100001001 = .instr (.ebkt 1 .up 2 37 9) := by decide
/-- op 0x23, bank 0, ceiling 1500, colour 6, len 44, start 50. -/
theorem test_decode_wash : decode 0b00100011001110000010110000110010 = .instr (.wash 0 .c1500 6 44 50) := by decide
/-- op 0x24, colour 3, start 28. -/
theorem test_decode_rawc : decode 0b00100100000011000000000000011100 = .instr (.rawc 3 28) := by decide
/-- op 0x25, bank 1, ceiling 600, colour 7, len 12, start 16. -/
theorem test_decode_sweep : decode 0b00100101100111000000110000010000 = .instr (.sweep 1 .c600 7 12 16) := by decide
theorem test_decode_commit : decode 0b00100110000000000000000000000000 = .instr .commit := by decide

/-- Each way a word is illegal (R75). -/
theorem test_decode_illegal :
    decode 0xFFFFFFFF = .illegal (.unknownOp 0xFF) ∧ decode 0x05000000 = .illegal (.unknownOp 5) ∧
    decode 0x00000001 = .illegal .unusedBits ∧ decode 0x21040040 = .illegal .unusedBits ∧
    decode 0x21070000 = .illegal .reservedBand ∧ decode 0x2208003F = .illegal .zeroLength := by decide

theorem test_table_word : decodeTableWord 32 0x2404001C = some (.rawc 1 28) := by decide
theorem test_table_word_illegal : decodeTableWord 32 0x230C0000 = none := by decide

/-! ### The tables -/

/-- R142's table, and that its sentence on the bits of `color` holds for it on colours 0, 1, 2 and 7 only (log 20). -/
theorem test_clut_follows_table :
    ∀ color : BitVec 3, (defaultClut[color.toNat]'(by have := color.isLt; omega) =
      pixelOf (if color[0] then 255 else 0) (if color[1] then 255 else 0) (if color[2] then 255 else 0)) ↔
      color = 0 ∨ color = 1 ∨ color = 2 ∨ color = 7 := by decide +kernel

/-- R79: the bars of mode 1 and of mode 6's second triple, as R176 prints their words, and a start cut to six bits (log 19). -/
theorem test_bars :
    (bars 0 .up 0).map encode = [0x21040000, 0x21090006, 0x210E000C] ∧
    (bars 1 .down 59).map encode = [0x21C4003B, 0x21C90035, 0x21CE002F] ∧
    (bars 0 .down 5)[1]? = some (.tier 0 .down 2 .mid 63) := by decide +kernel

/-- The checks R104 and R110 hold a transcription to. -/
theorem test_rom_tables :
    windowTable.length = 128 ∧ windowTable.reverse = windowTable ∧ window 0 = 2621 ∧ window 63 = 32763 ∧
    twiddleReTable.length = 64 ∧ twiddleImTable.length = 64 ∧
    (∀ k ∈ List.range 33, twiddleIm k = -twiddleRe (32 - k)) ∧
    (∀ k ∈ List.range 31, twiddleRe (63 - k) = -twiddleRe (k + 1) ∧ twiddleIm (63 - k) = twiddleIm (k + 1)) ∧
    twiddleRe 16 = 23170 ∧ twiddleIm 16 = -23170 := by decide +kernel

/-- The first values R111 prints. -/
theorem test_bitrev7 : (List.range 16).map bitrev7 = [0, 64, 32, 96, 16, 80, 48, 112, 8, 72, 40, 104, 24, 88, 56, 120] ∧
    bitrev7 127 = 127 ∧ bitrev7 126 = 63 := by decide +kernel

/-! ### One step at a time -/

/-- The reset state with its unspecified arrays at 0, so that a test can name their contents. -/
def lab : State :=
  { State.reset with
    raw := tabulate 128 fun _ => 0, re := tabulate 128 fun _ => 0, im := tabulate 128 fun _ => 0
    pix := tabulate 60 fun _ => 0 }

/-- `lab` with `RE` given by its leading elements, the rest 0. -/
def labRe (xs : List Int) : State := { lab with re := tabulate 128 fun i => wrapS32 (xs.getD i 0) }

/-- `lab` with the live bands, energy and averages given. -/
def labBands (band : Vector Word 3) (energy : Word) (avg : Vector Word 3) : State :=
  { lab with band := #v[band, #v[0, 0, 0]], energy := #v[energy, 0], avg := avg }

/-- A next state with the property. -/
def holds (r : Result) (p : State → Bool) : Bool :=
  match r with
  | .next s => p s
  | .fault _ | .refused _ => false

/-- R160: at `PC = 255` the next `PC` is 0. -/
theorem test_nop : holds (exec .nop { lab with pc := 255 }) (fun t => t.pc = 0) = true := by decide +kernel

/-- R161: `STATUS = 0x00050001`. -/
theorem test_halt : holds (exec .halt { lab with pc := 5 }) (fun t => statusWord t = 0x00050001) = true := by decide +kernel

/-- R162: `LRV` is not touched. -/
theorem test_endc : holds (exec .endc { lab with pc := 0x0D, lrv := true }) (fun t => t.pc = 0 && t.lrv) = true := by
  decide +kernel

/-- R163's example. -/
theorem test_dispatch_taken : holds (exec .dispatch { lab with pc := 0x0B, mode := 3 })
    (fun t => t.pc = 0x20 && t.lr = 0x0C && t.lrv) = true := by decide +kernel
theorem test_dispatch_unrecognised : holds (exec .dispatch { lab with pc := 0x0B, mode := 99, lr := 7 })
    (fun t => t.pc = 0x0C && t.lr = 7 && !t.lrv) = true := by decide +kernel

/-- R164's example, and `LINK` when no routine is open. -/
theorem test_ret : holds (exec .ret { lab with pc := 0x21, lr := 0x0C, lrv := true }) (fun t => t.pc = 0x0C && !t.lrv) = true := by
  decide +kernel
theorem test_ret_link : holds (exec .ret { lab with pc := 0x21 })
    (fun t => t.run = .faulted && t.cause = .link && t.faultPc = 0x21 && t.pc = 0x21) = true := by decide +kernel

/-- R91's example. -/
theorem test_acq : holds (exec .acq { lab with samples := [5000, 100, -3, 4095, 4096] })
    (fun t => t.raw[0] = 2048 && t.raw[1] = 100 && t.raw[2] = 100 && t.raw[3] = 4095 && t.raw[4] = 4095 &&
      t.re[4] = 1048320 && t.im[4] = 0) = true := by decide +kernel
/-- R91: exactly 128 readings are consumed. -/
theorem test_acq_consumes_128 : holds (exec .acq { lab with samples := List.replicate 130 7 })
    (fun t => t.samples = [7, 7] && t.samplesTaken = 128) = true := by decide +kernel

/-- R92's example. -/
theorem test_reload : holds (exec .reload { lab with raw := tabulate 128 fun _ => 2048, im := tabulate 128 fun _ => 5 })
    (fun t => t.re[0] = 524288 && t.im[0] = 0 && t.raw[0] = 2048) = true := by decide +kernel

/-- R100's example: `RAW = (2048, 2058, 2068, 2078)` repeated. -/
theorem test_dcr :
    holds (exec .dcr { lab with re := tabulate 128 fun i => wrapS32 ((2048 + 10 * (i % 4 : Nat)) * 256) })
      (fun t => t.re[0].toInt = -3840 && t.re[1].toInt = -1280 && t.re[126].toInt = 1280 && t.re[127].toInt = 3840) = true := by
  decide +kernel

/-- R101's example. -/
theorem test_iir : holds (exec .iir (labRe [-3840, -1280, 1280, 3840, -3840, -1280]))
    (fun t => t.re[0].toInt = -3840 && t.re[1].toInt = -3072 && t.re[2].toInt = -1766 && t.re[3].toInt = -84 &&
      t.re[4].toInt = -1211 && t.re[5].toInt = -1232) = true := by decide +kernel

/-- R103's example. -/
theorem test_win : holds (exec .win { labRe [-3840] with re := (labRe [-3840]).re.set 63 25600 })
    (fun t => t.re[0].toInt = -307 && t.re[63] = 25596) = true := by decide +kernel

/-- R112's example: `RE[1] = 256`, all else 0. -/
theorem test_fft : holds (exec .fft (labRe [0, 256]))
    (fun t => t.re[5] = 248 && t.im[5].toInt = -62) = true := by decide +kernel

/-- R114's example and its wrap. -/
theorem test_mag : holds (exec .mag { labRe [-768, -2147483648] with im := tabulate 128 fun i => if i = 0 then 1024 else 0 })
    (fun t => t.re[0] = 1280 && t.re[1].toInt = -2147483648 && t.im[0] = 1024) = true := by decide +kernel

/-- R120's example. -/
theorem test_band : holds (exec (.band 1) { lab with re := tabulate 128 fun k => if k = 2 ∨ k = 126 then 25600 else 0 })
    (fun t => t.band[1] = #v[1280, 0, 533] && t.band[0] = #v[0, 0, 0]) = true := by decide +kernel

/-- R121's examples: 12.5, and 0 with the sum of squares at 127. -/
theorem test_nrg : holds (exec (.nrg 0) { lab with re := tabulate 128 fun k => if k = 2 ∨ k = 126 then 25600 else 0 })
    (fun t => t.energy[0] = 3200) = true := by decide +kernel
theorem test_nrg_below_128 : holds (exec (.nrg 1) { lab with re := tabulate 128 fun k => if k < 127 then 1 else 0, energy := #v[9, 9] })
    (fun t => t.energy[1] = 0 && t.energy[0] = 9) = true := by decide +kernel

/-- R122's example, and energy 0. -/
theorem test_norm : holds (exec (.norm 0) (labBands #v[1280, 0, 533] 3200 #v[0, 0, 0]))
    (fun t => t.band[0] = #v[15360, 0, 6396]) = true := by decide +kernel
theorem test_norm_zero_energy : holds (exec (.norm 0) (labBands #v[1, 1, 0] 0 #v[0, 0, 0]))
    (fun t => t.band[0] = #v[1, 1, 0]) = true := by decide +kernel

/-- R130's examples: the third cycle, and the cap. -/
theorem test_smooth : holds (exec .smooth { labBands #v[51200, 0, 7] 0 #v[12800, 12800, 100] with count := 2 })
    (fun t => t.avg = #v[25600, 8533, 69] && t.count = 3) = true := by decide +kernel
theorem test_smooth_capped : holds (exec .smooth { labBands #v[25651, 25650, 0] 0 #v[25600, 25600, 0] with count := 50 })
    (fun t => t.avg = #v[25601, 25600, 0] && t.count = 50) = true := by decide +kernel

/-- R145. -/
theorem test_clear : holds (exec .clear { lab with pix := tabulate 60 fun _ => 0x123456 })
    (fun t => t.pix[0] = 0 && t.pix[59] = 0) = true := by decide +kernel

/-- R147's example, downward from 59: four pixels, the fifth kept. -/
theorem test_tier : holds (exec (.tier 1 .down 1 .bass 59)
    { labBands #v[0, 0, 0] 0 #v[25600, 12800, 100] with band := #v[#v[0, 0, 0], #v[30721, 0, 0]] })
    (fun t => t.pix[59] = 0xFF0000 && t.pix[56] = 0xFF0000 && t.pix[55] = 0) = true := by decide +kernel
/-- R185: `dir = 0` and `start > 54`. -/
theorem test_tier_range : holds (exec (.tier 0 .up 1 .bass 55) lab) (fun t => t.cause = .pixelRange && t.pix[55] = 0) = true := by
  decide +kernel

/-- R148's example: word 1023999 lights 15 of 16. -/
theorem test_ebkt : holds (exec (.ebkt 0 .up 2 16 0) (labBands #v[0, 0, 0] 1023999 #v[0, 0, 0]))
    (fun t => t.pix[0] = 0x00FF00 && t.pix[14] = 0x00FF00 && t.pix[15] = 0) = true := by decide +kernel
/-- R185: downward, `start < len - 1`. -/
theorem test_ebkt_range : holds (exec (.ebkt 0 .down 2 16 14) lab) (fun t => t.run = .faulted && t.cause = .pixelRange) = true := by
  decide +kernel

/-- R149's examples: brightness 127 and 51. -/
theorem test_wash : holds (exec (.wash 0 .c600 3 28 0) (labBands #v[76800, 76800, 76800] 0 #v[0, 0, 0]))
    (fun t => t.pix[0] = 0x00007F && t.pix[27] = 0x00007F && t.pix[28] = 0) = true := by decide +kernel
theorem test_wash_1500 : holds (exec (.wash 0 .c1500 7 60 0) (labBands #v[76800, 76800, 76800] 0 #v[0, 0, 0]))
    (fun t => t.pix[59] = 0x333333) = true := by decide +kernel

/-- R151's example: `RAW` alternating 1798, 2298 gives 6. -/
theorem test_rawc : holds (exec (.rawc 1 28) { lab with raw := tabulate 128 fun i => if i % 2 = 0 then 1798 else 2298 })
    (fun t => t.pix[28] = 0xFF0000 && t.pix[40] = 0xFF0000 && t.pix[33] = 0xFF0000 && t.pix[37] = 0) = true := by
  decide +kernel
/-- R151: `start > 45`. -/
theorem test_rawc_range : holds (exec (.rawc 1 46) lab) (fun t => t.cause = .pixelRange) = true := by decide +kernel

/-- R153's example, its second execution (elapsed 1001) and its last (elapsed 15 across the wrap). -/
theorem test_sweep : holds (exec (.sweep 0 .c600 7 12 16)
    { labBands #v[76800, 76800, 76800] 256000 #v[0, 0, 0] with times := [1001, 3] })
    (fun t => t.sweepPos = 1 && t.sweepT0 = 1001 && t.pix[17] = 0x7F7F7F && t.pix[16] = 0 && t.times = [3]) = true := by
  decide +kernel
theorem test_sweep_wrapped_time : holds (exec (.sweep 0 .c600 7 12 16)
    { labBands #v[76800, 76800, 76800] 256000 #v[0, 0, 0] with times := [10], sweepPos := 3, sweepT0 := 4294967291 })
    (fun t => t.sweepPos = 3 && t.sweepT0 = 4294967291 && t.pix[19] = 0x7F7F7F) = true := by decide +kernel

/-- R158. -/
theorem test_commit : holds (exec .commit lab) (fun t => t.frames.length = 1 && t.pix[0] = 0) = true := by decide +kernel

/-- R185's example: an illegal word at 0x0E gives `STATUS = 0x000E0E12`. -/
theorem test_step_illegal : holds (step { lab with pc := 0x0E }) (fun t => statusWord t = 0x000E0E12) = true := by decide +kernel

/-- The interface the host asks for: a placed word runs as the first operation after reset. -/
theorem test_placed_word_runs : step (State.reset.withFetchWord 32 0x233C3C00) =
    exec (.wash 0 .c1500 7 60 0) (State.reset.withFetchWord 32 0x233C3C00) := by rfl

/-! ### Witnesses: the hypotheses of each statement are met, each clause at its boundary -/

/-- `lab` with the word `w` at `PROG[PC]`. -/
def labWord (w : Nat) : State := lab.withFetchWord 32 w

theorem witness_DecodeEncodeRoundTrip :
    wellFormed (.ebkt 1 .down 7 1 63) = true ∧ wellFormed (.sweep 1 .c1500 7 63 63) = true := by decide +kernel

theorem witness_DecodedWordIsItsEncoding : decode 0x21CE002F = .instr (.tier 1 .down 3 .treble 47) := by decide +kernel

theorem witness_IllegalWordRaisesIllegalOp :
    (labWord 0x2208003F).run = .running ∧ ∀ j : Instr, (opcodeRow j).admits (fetch (labWord 0x2208003F)) = false :=
  ⟨rfl, fun j => by
    have e : fetch (labWord 0x2208003F) = 0x2208003F#32 := by decide +kernel
    rw [e]
    cases j <;> simp only [opcodeRow, OpcodeRow.admits] <;> decide⟩

theorem witness_PlacedOperationRuns : wellFormed (.ebkt 0 .up 2 1 0) = true ∧ Memory.wf lab.cfg.prog = true := by decide +kernel

theorem witness_StepRunsDecodedOperation :
    State.reset.run = .running ∧ decode (fetch State.reset) = .instr .acq ∧ wellFormed .acq = true ∧
    { State.reset with run := .halted }.run ≠ .running ∧ { State.reset with run := .faulted }.run ≠ .running := by decide +kernel

theorem witness_FaultWritesThreeRegisters :
    ∃ t, (labWord 0x04000000).run = .running ∧ step (labWord 0x04000000) = .next t ∧ t.run = .faulted :=
  ⟨_, rfl, rfl, rfl⟩

/-- One state for each cause, one that completes, at the boundaries of `TIER`'s footprint and of `LRV`. -/
theorem witness_FaultCausesExactly :
    (∀ w ∈ [0xFFFFFFFF, 0x21040036, 0x21040037, 0x21440005, 0x21440004, 0x2144003B, 0x2144003C, 0x03000000, 0x04000000],
      (labWord w).run = .running ∧ (labWord w).cause = .none) ∧
    (∃ t, step (labWord 0xFFFFFFFF) = .next t ∧ t.cause = .illegalOp) ∧
    (∃ t, step (labWord 0x21040036) = .next t ∧ t.cause = .none) ∧
    (∃ t, step (labWord 0x21040037) = .next t ∧ t.cause = .pixelRange) ∧
    (∃ t, step (labWord 0x21440005) = .next t ∧ t.cause = .none) ∧
    (∃ t, step (labWord 0x21440004) = .next t ∧ t.cause = .pixelRange) ∧
    (∃ t, step (labWord 0x2144003B) = .next t ∧ t.cause = .none) ∧
    (∃ t, step (labWord 0x2144003C) = .next t ∧ t.cause = .pixelRange) ∧
    (∃ t, step (labWord 0x03000000) = .next t ∧ t.cause = .none) ∧
    (∃ t, step { labWord 0x03000000 with lrv := true } = .next t ∧ t.cause = .link) ∧
    (∃ t, step (labWord 0x04000000) = .next t ∧ t.cause = .link) ∧
    (∃ t, step { labWord 0x04000000 with lrv := true } = .next t ∧ t.cause = .none) :=
  ⟨by decide +kernel, ⟨_, rfl, rfl⟩, ⟨_, rfl, rfl⟩, ⟨_, rfl, rfl⟩, ⟨_, rfl, rfl⟩, ⟨_, rfl, rfl⟩, ⟨_, rfl, rfl⟩, ⟨_, rfl, rfl⟩,
    ⟨_, rfl, rfl⟩, ⟨_, rfl, rfl⟩, ⟨_, rfl, rfl⟩, ⟨_, rfl, rfl⟩⟩

/-- At the edge of the invariant: count 50, sweep index 62, and a recorded fault. -/
theorem witness_StepKeepsInvariant :
    (∃ t, { labWord 0x1A000000 with count := 50, sweepPos := 62 }.Inv ∧
      step { labWord 0x1A000000 with count := 50, sweepPos := 62 } = .next t) ∧
    (∃ t, { lab with run := .faulted, cause := .link, faultPc := 9 }.Inv ∧
      step { lab with run := .faulted, cause := .link, faultPc := 9 } = .next t) := by
  refine ⟨⟨_, ?_, rfl⟩, ⟨_, ?_, rfl⟩⟩ <;> unfold State.Inv <;> decide +kernel

theorem witness_EventsKeepInvariant :
    lab.Inv ∧ (∃ t, onEvent (.hostWrites 0 99) lab = .next t) ∧ (∃ t, onEvent .resets lab = .next t) := by
  refine ⟨?_, ⟨_, rfl⟩, ⟨_, rfl⟩⟩
  unfold State.Inv
  decide +kernel

theorem witness_ResetGivesRegisterValues : ∃ t, onEvent .resets { lab with count := 50, mode := 99 } = .next t := ⟨_, rfl⟩

/-- For each register, array and port of the statement, an operation and a state where it changes. -/
theorem witness_OnlyNamedOperationsWrite :
    (∃ t, exec (.band 0) { lab with re := tabulate 128 fun _ => 256 } = .next t ∧ t.band ≠ lab.band) ∧
    (∃ t, exec (.nrg 1) { lab with re := tabulate 128 fun _ => 256 } = .next t ∧ t.energy ≠ lab.energy) ∧
    (∃ t, exec .smooth (labBands #v[5, 0, 0] 0 #v[0, 0, 0]) = .next t ∧ t.avg ≠ #v[0, 0, 0] ∧ t.count ≠ 0) ∧
    (∃ t, exec (.sweep 0 .c600 7 12 16) { labBands #v[0, 0, 0] 256 #v[0, 0, 0] with times := [1000001] } = .next t ∧
      t.sweepPos ≠ 0 ∧ t.timesTaken ≠ 0) ∧
    (∃ t, exec .dispatch lab = .next t ∧ t.lr ≠ lab.lr ∧ t.lrv ≠ lab.lrv) ∧
    (∃ t, exec .acq { lab with samples := [1] } = .next t ∧ t.raw[0] ≠ lab.raw[0] ∧ t.re[0] ≠ lab.re[0] ∧ t.samplesTaken ≠ 0) ∧
    (∃ t, exec .reload { lab with im := tabulate 128 fun _ => 1 } = .next t ∧ t.im[0] ≠ 1) ∧
    (∃ t, exec .clear { lab with pix := tabulate 60 fun _ => 1 } = .next t ∧ t.pix[0] ≠ 1) ∧
    (∃ t, exec .commit lab = .next t ∧ t.frames ≠ lab.frames) := by
  refine ⟨⟨_, rfl, ?_⟩, ⟨_, rfl, ?_⟩, ⟨_, rfl, ?_⟩, ⟨_, rfl, ?_⟩, ⟨_, rfl, ?_⟩, ⟨_, rfl, ?_⟩, ⟨_, rfl, ?_⟩, ⟨_, rfl, ?_⟩,
    ⟨_, rfl, ?_⟩⟩ <;> decide +kernel

theorem witness_ModeAndConfigurationKept :
    (∃ t, step (labWord 0) = .next t) ∧ (∃ t, onEvent (.hostWrites 0 7) lab = .next t) := ⟨⟨_, rfl⟩, ⟨_, rfl⟩⟩

theorem witness_ModeSeenOnlyByDispatch :
    decode (fetch (labWord 0)) ≠ .instr .dispatch ∧ ∃ t, step (labWord 0) = .next t := ⟨by decide +kernel, ⟨_, rfl⟩⟩

theorem witness_HostWritesOnlyMode : (1 : WindowAddr) ≠ 0 ∧ (0xFFF : WindowAddr) ≠ 0 := by decide +kernel

theorem witness_HostReadsWholeWindow :
    ∀ a ∈ [0x005, 0x007, 0x016, 0x03F, 0x07C, 0x0FF, 0x280, 0xFFF], (0x005 ≤ (BitVec.ofNat 12 a).toNat ∧ (BitVec.ofNat 12 a).toNat < 0x008 ∨
      0x016 ≤ (BitVec.ofNat 12 a).toNat ∧ (BitVec.ofNat 12 a).toNat < 0x040 ∨
      0x07C ≤ (BitVec.ofNat 12 a).toNat ∧ (BitVec.ofNat 12 a).toNat < 0x100 ∨ 0x280 ≤ (BitVec.ofNat 12 a).toNat) ∧
      BitVec.ofNat 12 a ≠ 0 := by decide +kernel

theorem witness_HaltStopsUntilReset :
    ∃ t, exec .halt lab = .next t ∧ (∃ u, onEvent .stepCore t = .next u) ∧ (∃ u, onEvent .resets t = .next u) :=
  ⟨_, rfl, ⟨_, rfl⟩, ⟨_, rfl⟩⟩

theorem witness_DispatchCallsModeRoutine :
    { lab with lrv := true }.lrv = true ∧ lab.lrv = false ∧
    (∀ m ∈ [1, 7], 1 ≤ { lab with mode := BitVec.ofNat 8 m }.mode.toNat ∧ { lab with mode := BitVec.ofNat 8 m }.mode.toNat ≤ 7) ∧
    ∀ m ∈ [0, 8, 99, 255], { lab with mode := BitVec.ofNat 8 m }.mode.toNat = 0 ∨ 8 ≤ { lab with mode := BitVec.ofNat 8 m }.mode.toNat := by
  decide +kernel

theorem witness_RetReturnsThroughLink : { lab with lrv := true }.lrv = true ∧ lab.lrv = false := by decide +kernel

/-- Readings at both ends of the legal range, and out of range at index 0 and after. -/
theorem witness_AcqStoresBlock :
    (sampleReading { lab with samples := [0, 4095] } 0).toInt = 0 ∧ (sampleReading { lab with samples := [0, 4095] } 1).toInt = 4095 ∧
    (sampleReading { lab with samples := [0xFFFF, 4096] } 0).toInt = -1 ∧
    (sampleReading { lab with samples := [0xFFFF, 4096] } 1).toInt = 4096 ∧ (0 : Fin 128).val + 1 = (1 : Fin 128).val :=
  ⟨rfl, rfl, rfl, rfl, rfl⟩

theorem witness_ReloadRestoresAcquiredArrays :
    ∃ t, exec .acq State.reset = .next t ∧ ∃ v, exec .reload t = .next v := ⟨_, rfl, _, rfl⟩

theorem witness_DcrSumIsZeroAfterAcquisition :
    (∃ t, exec .acq State.reset = .next t ∧ ∃ u, exec .dcr t = .next u) ∧
    ∃ t, exec .reload State.reset = .next t ∧ ∃ u, exec .dcr t = .next u := ⟨⟨_, rfl, _, rfl⟩, ⟨_, rfl, _, rfl⟩⟩

theorem witness_IirFollowsRecurrence : (0 : Fin 128).val + 1 = (1 : Fin 128).val ∧ (126 : Fin 128).val + 1 = (127 : Fin 128).val := by
  decide +kernel

theorem witness_IirPeakNeverGrows :
    (∃ t, exec .iir lab = .next t) ∧ (∀ i : Fin 128, |lab.re[i].toInt| ≤ 0) ∧ ∀ i j : Fin 128, lab.re[i] = lab.re[j] :=
  ⟨⟨_, rfl⟩, fun i => by simp [lab], fun i j => by simp [lab]⟩

theorem witness_ButterflyProduct : (0 : Fin 64).val = 0 ∧ (32 : Fin 64).val = 32 := by decide +kernel

theorem witness_FftStageIsAnyButterflyOrder :
    (1 ≤ 1 ∧ 1 ≤ 7 ∧ (stageButterflies 1).reverse.Perm (stageButterflies 1)) ∧
    (1 ≤ 7 ∧ 7 ≤ 7 ∧ (stageButterflies 7).reverse.Perm (stageButterflies 7)) :=
  ⟨⟨by decide +kernel, by decide +kernel, List.reverse_perm _⟩, ⟨by decide +kernel, by decide +kernel, List.reverse_perm _⟩⟩

theorem witness_FftOfImpulseAndConstant :
    (∀ i : Fin 128, (labRe [256]).im[i] = 0) ∧ (∃ t, exec .fft (labRe [256]) = .next t) ∧
    (∀ i : Fin 128, i.val ≠ 0 → (labRe [256]).re[i] = 0) ∧ ∀ i : Fin 128, lab.re[i] = lab.re[0] := by
  refine ⟨fun i => by simp [labRe, lab], ⟨_, rfl⟩, fun i hi => ?_, fun i => by simp [lab]⟩
  obtain ⟨_ | n, h⟩ := i
  · exact absurd rfl hi
  · simp [labRe, wrapS32]

theorem witness_AcquiredSpectrumIsBounded :
    (∃ t, execAll [.acq, .dcr, .iir, .win] State.reset = .next t) ∧
    (∃ t, execAll [.acq, .dcr, .iir, .win, .fft] State.reset = .next t) ∧
    (∃ t, execAll [.acq, .dcr, .iir, .win, .fft, .mag] State.reset = .next t) ∧
    (∃ t, execAll [.reload, .dcr, .iir, .win] State.reset = .next t) ∧
    (∃ t, execAll [.reload, .dcr, .iir, .win, .fft] State.reset = .next t) ∧
    ∃ t, execAll [.reload, .dcr, .iir, .win, .fft, .mag] State.reset = .next t :=
  ⟨⟨_, rfl⟩, ⟨_, rfl⟩, ⟨_, rfl⟩, ⟨_, rfl⟩, ⟨_, rfl⟩, ⟨_, rfl⟩⟩

theorem witness_NormScalesByGainOverEnergy :
    lab.energy[(0 : Bank)] = 0 ∧ (labBands #v[1280, 0, 533] 1 #v[0, 0, 0]).energy[(0 : Bank)] ≠ 0 := by decide +kernel

/-- `NORM`, the one analysis operation that branches, answers a next state either way. -/
theorem norm_answers (bank : Bank) (s : State) : ∃ t, execNorm bank s = .next t := by
  unfold execNorm
  split <;> exact ⟨_, rfl⟩

theorem witness_NormalisedBelowTwoTo18 :
    (∀ k : Fin 128, 0 ≤ (lab.re[k]).toInt) ∧ ∃ t, execAll [.band 0, .nrg 0, .norm 0] lab = .next t := by
  refine ⟨fun k => by simp [lab], ?_⟩
  simp only [execAll, exec, execBand, execNrg, finish]
  generalize ht : execNorm 0 _ = r
  obtain ⟨t, e⟩ := norm_answers 0 _
  rw [ht] at e
  exact ⟨t, by rw [e]⟩

theorem witness_SmoothOfConstantInput : lab.count = 0 ∧ (1 ≤ 1 ∧ 1 ≤ 50) := by decide +kernel

/-- Amplitudes on both sides of every boundary of R147's example, and threshold 0. -/
theorem witness_TierCountTable :
    thr (labBands #v[0, 0, 0] 0 #v[25600, 12800, 100]) 0 = 20480 ∧ thr lab 0 = 0 ∧
    ∀ c ∈ [(0, 0), (1, 1), (20480, 1), (20481, 2), (25600, 2), (25601, 3), (30720, 3), (30721, 4), (35840, 4), (35841, 5), (40960, 5), (40961, 6)],
      tierCount (labBands #v[BitVec.ofNat 32 c.1, 0, 0] 0 #v[25600, 12800, 100]) 0 0 = c.2 := by decide +kernel

/-- Both ends of the legal and of the faulting starts, upward and downward. -/
theorem witness_TierLightsPrefix :
    ¬ leavesPixels (.tier 0 .up 1 .bass 54) ∧ 54 < (55 : BitVec 6).toNat ∧
    ¬ leavesPixels (.tier 0 .down 1 .bass 5) ∧ (4 : BitVec 6).toNat < 5 ∧ ¬ leavesPixels (.tier 1 .down 1 .treble 59) := by
  unfold leavesPixels
  decide +kernel

theorem witness_EbktLightsBuckets :
    (1 : BitVec 6) ≠ 0 ∧ ¬ leavesPixels (.ebkt 0 .up 2 1 59) ∧
    (60 : BitVec 6) ≠ 0 ∧ ¬ leavesPixels (.ebkt 0 .up 2 60 0) ∧ 60 < (0 : BitVec 6).toNat + (61 : BitVec 6).toNat ∧
    ¬ leavesPixels (.ebkt 0 .down 2 60 59) ∧ (58 : BitVec 6).toNat + 1 < (60 : BitVec 6).toNat ∧ (0 : BitVec 6) = 0 := by
  unfold leavesPixels
  decide +kernel

theorem witness_WashFillsSegment :
    (60 : BitVec 6) ≠ 0 ∧ (0 : BitVec 6).toNat + (60 : BitVec 6).toNat ≤ 60 ∧ 60 < (1 : BitVec 6).toNat + (60 : BitVec 6).toNat ∧ (0 : BitVec 6) = 0 := by
  decide +kernel

theorem witness_RawCountFormula : ∀ i j : Fin 128, lab.raw[i] = lab.raw[j] := fun i j => by simp [lab]

theorem witness_RawcLightsColumns : (45 : BitVec 6).toNat ≤ 45 ∧ 45 < (46 : BitVec 6).toNat := by decide +kernel

theorem witness_SweepAdvancesAndLightsOne :
    (12 : BitVec 6) ≠ 0 ∧ (48 : BitVec 6).toNat + (12 : BitVec 6).toNat ≤ 60 ∧ 60 < (49 : BitVec 6).toNat + (12 : BitVec 6).toNat ∧ (0 : BitVec 6) = 0 := by
  decide +kernel

theorem witness_BrightnessClampsAndScales :
    (0 + 0 + 0) / 3 = 0 ∧ bri (labBands #v[153600, 153600, 153600] 0 #v[0, 0, 0]) 0 .c600 = 255 ∧
    bri (labBands #v[603, 603, 603] 0 #v[0, 0, 0]) 0 .c600 = 1 := by decide +kernel

theorem witness_ScaleActsOnChannels : 255 ≤ 255 ∧ redOf 0xFFFFFF = 255 ∧ greenOf 0xFFFFFF = 255 ∧ blueOf 0xFFFFFF = 255 := by
  decide +kernel

theorem witness_RenderPropertiesOfDoc :
    (footprint (.wash 0 .c600 3 60 0) ≠ [] ∧ lab.pix = Vector.replicate 60 0 ∧
      lab.band = Vector.replicate 2 (Vector.replicate 3 0) ∧ lab.energy = Vector.replicate 2 0 ∧
      (∀ i j : Fin 128, lab.raw[i] = lab.raw[j]) ∧ ∃ t, exec (.wash 0 .c600 3 60 0) lab = .next t) ∧
    (lab.lrv = false ∧ 8 ≤ { lab with mode := 8 }.mode.toNat ∧
      ∃ t, execAll [.clear, .dispatch, .commit] { lab with mode := 8 } = .next t) ∧
    63999 ≤ 64000 ∧ 64000 * 16 ≤ 1024000 ∧ ceilValue .c600 ≤ 153600 ∧ ceilValue .c1500 ≤ 384000 :=
  ⟨⟨by decide +kernel, by decide +kernel, by decide +kernel, by decide +kernel, fun i j => by simp [lab], ⟨_, rfl⟩⟩, ⟨rfl, by decide +kernel, ⟨_, rfl⟩⟩,
    by decide +kernel⟩

theorem witness_DualPathGivesSameTriple :
    ∃ t v, execAll (.acq :: analyze 0) State.reset = .next t ∧ t.raw = t.raw ∧ execAll (.reload :: analyze 1) t = .next v := by
  have run : ∀ (i : Instr) (bank : Bank) (s : State), i = .acq ∨ i = .reload → ∃ t, execAll (i :: analyze bank) s = .next t := by
    intro i bank s hi
    rcases hi with rfl | rfl <;>
      simp only [analyze, execAll, exec, execAcq, execReload, execDcr, execIir, execWin, execFft, execMag, execBand, execNrg, finish] <;>
      (generalize ht : execNorm bank _ = r; obtain ⟨t, e⟩ := norm_answers bank _; rw [ht] at e; exact ⟨t, by rw [e]⟩)
  obtain ⟨t, ht⟩ := run .acq 0 State.reset (.inl rfl)
  obtain ⟨v, hv⟩ := run .reload 1 t (.inr rfl)
  exact ⟨t, v, ht, rfl, hv⟩

theorem witness_DefaultProgramNeverFaults :
    State.reset.OnDefaultPath ∧ (∃ t, onEvent .stepCore State.reset = .next t) ∧ ∃ t, onEvent .resets State.reset = .next t := by
  refine ⟨?_, ⟨_, rfl⟩, ⟨_, rfl⟩⟩
  exact ⟨⟨rfl, rfl⟩, rfl, .inl ⟨rfl, rfl⟩⟩

theorem witness_DefaultCycleReturnsToTop :
    State.reset.HasDefaultProgram ∧ State.reset.run = .running ∧ State.reset.pc = 0 ∧ State.reset.lrv = false :=
  ⟨⟨rfl, rfl⟩, rfl, rfl, rfl⟩

end Sys2Proof.Tests
end

section
/-! PROOFS. Every step of every state answers a next state (`00_scope.md` R17, `60_exceptions.md` R185; log 12). -/

namespace Sys2Proof.Machine

/-! ### The step, case by case (R165) -/

/-- `HALTED` and `FAULTED` are absorbing. -/
theorem step_of_stopped {s : State} (h : s.run ≠ .running) : step s = .next s := by
  unfold step
  cases hr : s.run
  case running => exact absurd hr h
  case halted | faulted => rfl

theorem step_of_illegal {s : State} {why : Illegal} (h : s.run = .running) (hd : decode (fetch s) = .illegal why) :
    step s = .next (raise .illegalOp s) := by
  simp [step, h, hd]

theorem step_of_instr {s : State} {i : Instr} (h : s.run = .running) (hd : decode (fetch s) = .instr i) :
    step s = exec i s := by
  simp [step, h, hd]

/-! ### Every operation answers -/

/-- A guarded meaning answers when both of its branches do: the failed check of R186 is a next state too. -/
theorem ite_answers {c : Prop} [Decidable c] {a b : Result} (ha : ∃ t, a = .next t) (hb : ∃ t, b = .next t) :
    ∃ t, (if c then a else b) = .next t := by
  split
  · exact ha
  · exact hb

/-- `DISPATCH` answers in each case of R163: the `LINK` fault, a recognised mode, any other mode. -/
theorem execDispatch_answers (s : State) : ∃ t, execDispatch s = .next t := by
  unfold execDispatch
  refine ite_answers ⟨_, rfl⟩ ?_
  split
  · exact ⟨_, rfl⟩
  · exact ⟨_, rfl⟩

/-- Each case follows its meaning's guards: `RET`'s `LINK` check, `NORM`'s zero energy, the footprint check of the
drawing operations, and before it the check of `len` where there is one. -/
theorem exec_answers (i : Instr) (s : State) : ∃ t, exec i s = .next t := by
  cases i with
  | nop | halt | endc | acq | reload | dcr | iir | win | fft | mag | band | nrg | smooth | clear | commit =>
    exact ⟨_, rfl⟩
  | dispatch => exact execDispatch_answers s
  | ret | norm | tier | rawc => exact ite_answers ⟨_, rfl⟩ ⟨_, rfl⟩
  | ebkt | wash | sweep => exact ite_answers ⟨_, rfl⟩ (ite_answers ⟨_, rfl⟩ ⟨_, rfl⟩)

/-- Settles O8: a stopped sequencer answers itself, an illegal word the fault state, a decoded operation by
`exec_answers`. -/
theorem stepAlwaysAnswersNext : Obligations.StepAlwaysAnswersNext := by
  intro s
  by_cases hrun : s.run = .running
  · cases hd : decode (fetch s) with
    | illegal why => exact ⟨_, step_of_illegal hrun hd⟩
    | instr i =>
      obtain ⟨t, ht⟩ := exec_answers i s
      exact ⟨t, (step_of_instr hrun hd).trans ht⟩
  · exact ⟨s, step_of_stopped hrun⟩

end Sys2Proof.Machine
end

section
/-! PROOFS. What an operation can leave behind, said once for each operation, and what follows for the whole state: the
invariant of Safety.lean, the registers and arrays each operation may write, the configuration (`10_state.md`). -/

namespace Sys2Proof.Machine

/-! ### What a completed operation leaves -/

/-- `t` is `s` with no more written than the rule of `i` names for an operation that completes, `PC` and `RUN` included;
of the new values it says what the invariant needs: `COUNT` stops at its cap (R130), the rotating index stays or is
reduced `mod len` with `len <= 63` (R153). -/
def Completes (s t : State) : Instr → Prop
  | .nop => t = advance s
  | .halt => t = { s with run := .halted }
  | .endc => t = { s with pc := 0 }
  | .dispatch => t = advance s ∨ ∃ pc, t = { s with pc := pc, lr := s.pc + 1, lrv := true }
  | .ret => t = { s with pc := s.lr, lrv := false }
  | .acq => ∃ raw re im, t = advance { consumeSamples Config.blockLen s with raw := raw, re := re, im := im }
  | .reload | .fft => ∃ re im, t = advance { s with re := re, im := im }
  | .dcr | .iir | .win | .mag => ∃ re, t = advance { s with re := re }
  | .band _ | .norm _ => ∃ band, t = advance { s with band := band }
  | .nrg _ => ∃ energy, t = advance { s with energy := energy }
  | .smooth => ∃ avg count, BitVec.toNat count ≤ Config.countCap ∧ t = advance { s with avg := avg, count := count }
  | .clear | .tier .. | .rawc .. => ∃ pix, t = advance { s with pix := pix }
  | .ebkt _ _ _ len _ | .wash _ _ _ len _ => len ≠ 0 ∧ ∃ pix, t = advance { s with pix := pix }
  | .sweep _ _ _ len _ => len ≠ 0 ∧ ∃ pos t0 pix, (pos = s.sweepPos ∨ pos.toNat ≤ 62) ∧
      t = advance { consumeTime s with sweepPos := pos, sweepT0 := t0, pix := pix }
  | .commit => t = advance (frameCommit s)

/-- `SMOOTH` leaves a count of at most 50 (R24, R132 (a)). -/
theorem smoothCount_le (c : Nat) : (BitVec.ofNat 6 (min (c + 1) Config.countCap)).toNat ≤ Config.countCap := by
  rw [BitVec.toNat_ofNat]
  exact (Nat.mod_le _ _).trans (Nat.min_le_right _ _)

/-- A `len` field that is not the zero word is not the number 0. -/
theorem len_toNat_ne_zero {len : BitVec 6} (h : len ≠ 0) : len.toNat ≠ 0 :=
  BitVec.toNat_ne_iff_ne.mpr h

/-- An index reduced `mod len` is at most 62, since a `len` field holds at most 63 (R153). -/
theorem sweepIndex_le (p : Nat) {len : BitVec 6} (h : len ≠ 0) : (BitVec.ofNat 6 (p % len.toNat)).toNat ≤ 62 := by
  have reduced : p % len.toNat < len.toNat := Nat.mod_lt p (Nat.pos_of_ne_zero (len_toNat_ne_zero h))
  have len_lt := len.isLt
  rw [BitVec.toNat_ofNat]
  omega

/-- The rotating index and its time after the advance of a `SWEEP` (R153). -/
theorem sweepAdvance_writes (now : Word) (bank : Bank) {len : BitVec 6} (hlen : len ≠ 0) (s : State) :
    ∃ pos t0, (pos = s.sweepPos ∨ pos.toNat ≤ 62) ∧
      sweepAdvance now bank len.toNat s = { s with sweepPos := pos, sweepT0 := t0 } := by
  rcases sweepAdvance_cases now bank len.toNat s with e | e
  · exact ⟨_, _, .inl rfl, e⟩
  · exact ⟨_, _, .inr (sweepIndex_le _ hlen), e⟩

/-- A guarded meaning answers what the branch its guard selects answers. -/
theorem next_of_ite {c : Prop} [Decidable c] {a b : Result} {t : State} {P : Prop} (h : (if c then a else b) = .next t)
    (yes : c → a = .next t → P) (no : ¬c → b = .next t → P) : P := by
  split at h
  · exact yes ‹_› h
  · exact no ‹_› h

/-- The inversion of `exec`: an operation takes a fault (R184) or leaves what `Completes` says. -/
theorem exec_cases {i : Instr} {s t : State} (h : exec i s = .next t) :
    (∃ c, c ≠ .none ∧ t = raise c s) ∨ Completes s t i := by
  have faults {c : Cause} (hc : c ≠ .none) (e : Host.Outcome.next (raise c s) = (.next t : Result)) :
      (∃ c, c ≠ .none ∧ t = raise c s) ∨ Completes s t i := .inl ⟨c, hc, (Host.Outcome.next.inj e).symm⟩
  cases i with
  | nop | halt | endc | commit => exact .inr (Host.Outcome.next.inj h).symm
  | acq => exact .inr ⟨_, _, _, finish_inj.mp h⟩
  | reload | fft => exact .inr ⟨_, _, finish_inj.mp h⟩
  | dcr | iir | win | mag | band | nrg | clear => exact .inr ⟨_, finish_inj.mp h⟩
  | smooth => exact .inr ⟨_, _, smoothCount_le _, finish_inj.mp h⟩
  | dispatch =>
    refine next_of_ite h (fun _ => faults (by decide)) fun _ h => .inr ?_
    split at h
    · exact .inr ⟨_, (Host.Outcome.next.inj h).symm⟩
    · exact .inl (finish_inj.mp h)
  | ret => exact next_of_ite h (fun _ e => .inr (Host.Outcome.next.inj e).symm) fun _ => faults (by decide)
  | norm => exact next_of_ite h (fun _ e => .inr ⟨s.band, finish_inj.mp e⟩) fun _ e => .inr ⟨_, finish_inj.mp e⟩
  | tier | rawc => exact next_of_ite h (fun _ e => .inr ⟨_, finish_inj.mp e⟩) fun _ => faults (by decide)
  | ebkt | wash =>
    exact next_of_ite h (fun _ => faults (by decide)) fun hlen h =>
      next_of_ite h (fun _ e => .inr ⟨hlen, _, finish_inj.mp e⟩) fun _ => faults (by decide)
  | sweep bank ceil color len start =>
    refine next_of_ite h (fun _ => faults (by decide)) fun hlen h =>
      next_of_ite h (fun _ e => .inr ⟨hlen, ?_⟩) fun _ => faults (by decide)
    obtain ⟨pos, t0, hpos, advanced⟩ := sweepAdvance_writes (timeReading s) bank hlen (consumeTime s)
    rw [advanced] at e
    exact ⟨pos, t0, _, hpos, finish_inj.mp e⟩

/-- What no completed operation writes: the fault registers (R29), `MODE` (R33), the configuration (R64); and `RUN` only
from running to halted (R161). -/
theorem Completes.keeps {i : Instr} {s t : State} (h : Completes s t i) :
    t.cause = s.cause ∧ t.faultPc = s.faultPc ∧ t.mode = s.mode ∧ t.cfg = s.cfg ∧ (t.run = s.run ∨ t.run = .halted) := by
  cases i with
  | nop | halt | endc | ret | commit => subst h; simp
  | dispatch => rcases h with rfl | ⟨_, rfl⟩ <;> simp
  | acq => obtain ⟨_, _, _, rfl⟩ := h; simp
  | reload | fft => obtain ⟨_, _, rfl⟩ := h; simp
  | dcr | iir | win | mag | band | norm | nrg | clear | tier | rawc => obtain ⟨_, rfl⟩ := h; simp
  | smooth => obtain ⟨_, _, _, rfl⟩ := h; simp
  | ebkt | wash => obtain ⟨_, _, rfl⟩ := h; simp
  | sweep => obtain ⟨_, _, _, _, _, rfl⟩ := h; simp

/-! ### What each operation may write -/

@[simp] theorem length_segIndices (dir : Dir) (start : BitVec 6) (n : Nat) : (segIndices dir start n).length = n := by
  simp [segIndices]

/-- A segment of `n` pixels has no index only when `n = 0` (R140). -/
@[simp] theorem segIndices_eq_nil {dir : Dir} {start : BitVec 6} {n : Nat} : segIndices dir start n = [] ↔ n = 0 := by
  rw [← List.length_eq_zero_iff, length_segIndices]

/-- Settles O15: a fault writes none of these fields, and `Completes` names what each operation may write. A drawing
operation that completes has a footprint, since one with `len = 0` takes a fault. -/
theorem onlyNamedOperationsWrite : Obligations.OnlyNamedOperationsWrite := by
  intro i s t h
  rcases exec_cases h with ⟨c, -, rfl⟩ | done
  · simp
  · cases i with
    | nop | halt | endc | ret | commit => subst done; simp
    | dispatch => rcases done with rfl | ⟨_, rfl⟩ <;> simp
    | acq => obtain ⟨_, _, _, rfl⟩ := done; simp
    | reload | fft => obtain ⟨_, _, rfl⟩ := done; simp
    | dcr | iir | win | mag | band | norm | nrg | clear => obtain ⟨_, rfl⟩ := done; simp
    | smooth => obtain ⟨_, _, _, rfl⟩ := done; simp
    | tier | rawc => obtain ⟨_, rfl⟩ := done; simp [footprint]
    | ebkt | wash => obtain ⟨hlen, _, rfl⟩ := done; simp [footprint, len_toNat_ne_zero hlen]
    | sweep => obtain ⟨hlen, _, _, _, _, rfl⟩ := done; simp [footprint, len_toNat_ne_zero hlen]

/-! ### The invariant -/

/-- `COUNT` stays at most 50: only `SMOOTH` writes it (R24). -/
theorem exec_count_le {i : Instr} {s t : State} (h : exec i s = .next t) (hs : s.count.toNat ≤ Config.countCap) :
    t.count.toNat ≤ Config.countCap := by
  obtain ⟨-, -, -, only_smooth, -⟩ := onlyNamedOperationsWrite i s t h
  by_cases kept : t.count = s.count
  · rwa [kept]
  · obtain rfl := only_smooth kept
    obtain ⟨_, _, capped, rfl⟩ := (exec_cases h).resolve_left fun ⟨c, _, e⟩ => kept (by rw [e, raise_count])
    exact capped

/-- `SWEEP_POS` stays at most 62: only `SWEEP` writes it (R25, R153). -/
theorem exec_sweepPos_le {i : Instr} {s t : State} (h : exec i s = .next t) (hs : s.sweepPos.toNat ≤ 62) :
    t.sweepPos.toNat ≤ 62 := by
  obtain ⟨-, -, -, -, only_sweep, -⟩ := onlyNamedOperationsWrite i s t h
  by_cases kept : t.sweepPos = s.sweepPos
  · rwa [kept]
  · obtain ⟨_, _, _, _, _, rfl⟩ := only_sweep (.inl kept)
    obtain ⟨_, pos, _, _, hpos, rfl⟩ := (exec_cases h).resolve_left fun ⟨c, _, e⟩ => kept (by rw [e, raise_sweepPos])
    exact hpos.resolve_left kept

/-- Taking a fault records its cause and so keeps the invariant (R184). -/
theorem raise_inv {s : State} (hs : s.Inv) {c : Cause} (hc : c ≠ .none) : (raise c s).Inv := by
  obtain ⟨count_le, -, -, sweep_le, prog_wf⟩ := hs
  exact ⟨count_le, iff_of_false hc (fun h => h rfl), fun h => absurd rfl h, sweep_le, prog_wf⟩

/-- An operation executed while running keeps the invariant: it takes a fault, or it leaves the fault registers clear. -/
theorem exec_inv {i : Instr} {s t : State} (hrun : s.run = .running) (hs : s.Inv) (h : exec i s = .next t) : t.Inv := by
  rcases exec_cases h with ⟨c, hc, rfl⟩ | done
  · exact raise_inv hs hc
  · obtain ⟨count_le, cause_iff, faultPc_clear, sweep_le, prog_wf⟩ := hs
    obtain ⟨cause_kept, faultPc_kept, -, cfg_kept, run_kept⟩ := done.keeps
    have healthy : s.run ≠ .faulted := by simp [hrun]
    have healthy' : t.run ≠ .faulted := by rcases run_kept with e | e <;> simp [e, hrun]
    exact ⟨exec_count_le h count_le, iff_of_true (cause_kept.trans (cause_iff.mpr healthy)) healthy',
      fun _ => faultPc_kept.trans (faultPc_clear healthy), exec_sweepPos_le h sweep_le, by rwa [cfg_kept]⟩

/-- Settles O12, by the three cases of a step. -/
theorem stepKeepsInvariant : Obligations.StepKeepsInvariant := by
  intro s t hs h
  rcases step_cases h with ⟨-, rfl⟩ | ⟨-, -, rfl⟩ | ⟨hrun, i, -, executed⟩
  · exact hs
  · exact raise_inv hs (by decide)
  · exact exec_inv hrun hs executed

/-- Settles O11: every register of the invariant has its value of R41, and the program memory of the default
configuration lists no word. -/
theorem invariantAtReset : Obligations.InvariantAtReset :=
  ⟨by decide, by decide, fun _ => rfl, by decide, reset_prog_wf⟩

/-! ### `MODE` and the configuration -/

/-- No operation writes `MODE` or the configuration, whether it completes or takes a fault (R33, R64). -/
theorem exec_keeps_mode_cfg {i : Instr} {s t : State} (h : exec i s = .next t) : t.mode = s.mode ∧ t.cfg = s.cfg := by
  rcases exec_cases h with ⟨c, -, rfl⟩ | done
  · exact ⟨rfl, rfl⟩
  · obtain ⟨-, -, mode_kept, cfg_kept, -⟩ := done.keeps
    exact ⟨mode_kept, cfg_kept⟩

theorem step_keeps_mode_cfg {s t : State} (h : step s = .next t) : t.mode = s.mode ∧ t.cfg = s.cfg := by
  rcases step_cases h with ⟨-, rfl⟩ | ⟨-, -, rfl⟩ | ⟨-, i, -, executed⟩
  · exact ⟨rfl, rfl⟩
  · exact ⟨rfl, rfl⟩
  · exact exec_keeps_mode_cfg executed

/-- A host write reaches `MODE` only (R33). -/
@[simp] theorem hostWrite_cfg (addr : WindowAddr) (v : Word) (s : State) : (hostWrite addr v s).cfg = s.cfg := by
  unfold hostWrite
  split <;> rfl

/-- Settles O16: the step by `step_keeps_mode_cfg`; every other event writes `MODE`, a port's queue, or the reset values, and
reset keeps the configuration. -/
theorem modeAndConfigurationKept : Obligations.ModeAndConfigurationKept := by
  refine ⟨fun _ _ => step_keeps_mode_cfg, fun e s t h => ?_⟩
  cases e with
  | stepCore => exact (step_keeps_mode_cfg h).2
  | hostWrites addr v => rw [← Host.Outcome.next.inj h, hostWrite_cfg]
  | hostReads | sampleReady | timeReady | resets => obtain rfl := Host.Outcome.next.inj h; rfl

/-- An answer with `MODE` put to `m` in its next state. -/
def answerInMode (m : ModeWord) : Result → Result
  | .next t => .next { t with mode := m }
  | .fault r => .fault r
  | .refused r => .refused r

/-- The sweep's advance does not see `MODE`. -/
theorem sweepAdvance_mode (now : Word) (bank : Bank) (len : Nat) (s : State) (m : ModeWord) :
    sweepAdvance now bank len { s with mode := m } = { sweepAdvance now bank len s with mode := m } := by
  unfold sweepAdvance
  split
  · rfl
  · split <;> rfl

/-- The samples `ACQ` stores do not depend on `MODE`. -/
theorem storedFrom_mode (s : State) (m : ModeWord) (prev : RawSample) (i n : Nat) :
    storedFrom { s with mode := m } prev i n = storedFrom s prev i n := by
  induction n generalizing prev i with
  | zero => rfl
  | succ n ih => exact congrArg (List.cons _) (ih _ _)

/-- The block `ACQ` stores does not depend on `MODE`. -/
theorem acquiredBlock_mode (s : State) (m : ModeWord) : acquiredBlock { s with mode := m } = acquiredBlock s := by
  simp only [acquiredBlock, storedFrom_mode]

/-- A guard that does not see `MODE`, over meanings that do not see it. -/
theorem ite_mode {c : Prop} [Decidable c] {a b a' b' : Result} {m : ModeWord} (ha : a' = answerInMode m a)
    (hb : b' = answerInMode m b) : (if c then a' else b') = answerInMode m (if c then a else b) := by
  split
  · exact ha
  · exact hb

/-- Every meaning but `DISPATCH`'s reads other fields only, and carries `MODE` along (R32, R61). -/
theorem exec_mode {i : Instr} (hi : i ≠ .dispatch) (s : State) (m : ModeWord) :
    exec i { s with mode := m } = answerInMode m (exec i s) := by
  cases i with
  | dispatch => exact absurd rfl hi
  | nop | halt | endc | reload | dcr | iir | win | fft | mag | band | nrg | smooth | clear | commit => rfl
  | acq =>
    show execAcq _ = _
    rw [execAcq, acquiredBlock_mode]
    rfl
  | ret | norm | tier | rawc => exact ite_mode rfl rfl
  | ebkt | wash => exact ite_mode rfl (ite_mode rfl rfl)
  | sweep bank ceil color len start =>
    refine ite_mode rfl (ite_mode ?_ rfl)
    exact congrArg (fun t => finish { t with
        pix := paint t.pix (fun _ => start.toNat + t.sweepPos.toNat % len.toNat) 1
          (scale (clutColor s color) (bri s bank ceil)) })
      (sweepAdvance_mode (timeReading s) bank len.toNat (consumeTime s) m)

/-- Settles O17: the fetch does not see `MODE`, so both runs take the same case of the step. -/
theorem modeSeenOnlyByDispatch : Obligations.ModeSeenOnlyByDispatch := by
  intro s t m other h
  rcases step_cases h with ⟨stopped, rfl⟩ | ⟨hrun, ⟨why, hd⟩, rfl⟩ | ⟨hrun, i, hd, executed⟩
  · exact step_of_stopped stopped
  · exact step_of_illegal hrun hd
  · have hi : i ≠ .dispatch := fun e => other (e ▸ hd)
    calc step { s with mode := m } = exec i { s with mode := m } := step_of_instr hrun hd
      _ = answerInMode m (exec i s) := exec_mode hi s m
      _ = .next { t with mode := m } := by rw [executed]; rfl

/-! ### `STATUS` -/

/-- The fields of a word packed by R31's layout. -/
theorem statusFields (lr pc faultPc : BitVec 8) (cause : BitVec 4) (zero lrv : BitVec 1) (run : BitVec 2) {w : Word}
    (hw : w = lr ++ pc ++ faultPc ++ cause ++ zero ++ lrv ++ run) :
    w.extractLsb' 0 2 = run ∧ w.extractLsb' 2 1 = lrv ∧ w.extractLsb' 3 1 = zero ∧ w.extractLsb' 4 4 = cause ∧
      w.extractLsb' 8 8 = faultPc ∧ w.extractLsb' 16 8 = pc ∧ w.extractLsb' 24 8 = lr := by
  subst hw
  simp only [BitVec.extractLsb'_append_eq_ite]
  simp

/-- Settles O20: the window's word at address 1 is the packed word, whose fields `statusFields` reads; each code is that
of R29 and R185; a write reaches address 0 only. -/
theorem statusLayout : Obligations.StatusLayout := by
  refine ⟨fun s => ⟨statusWord s, rfl, ?_⟩, rfl⟩
  obtain ⟨hrun, hlrv, hzero, hcause, hfault, hpc, hlr⟩ := statusFields (w := statusWord s) _ _ _ _ _ _ _ rfl
  refine ⟨?_, ?_, hzero, ?_, hfault, hpc, hlr, fun _ => rfl⟩
  · rw [hrun]
    cases s.run <;> rfl
  · rw [hlrv]
    cases s.lrv <;> rfl
  · rw [hcause]
    cases s.cause <;> rfl

end Sys2Proof.Machine
end

section
/-! PROOFS. The host window and the events between two steps (`20_memory.md`): what a host write changes, what each row of
the map reads, and that every event keeps the invariant of Safety.lean. -/

namespace Sys2Proof.Machine

/-! ### Host writes -/

/-- Address 0 is `MODE`, which takes bits 7 to 0 (R33, R55). -/
@[simp] theorem hostWrite_zero (v : Word) (s : State) : hostWrite 0 v s = { s with mode := v.setWidth 8 } := rfl

/-- Every other address ignores a write (R55, R57). -/
theorem hostWrite_of_ne_zero {addr : WindowAddr} (h : addr ≠ 0) (v : Word) (s : State) : hostWrite addr v s = s :=
  if_neg h

/-- Settles O18: the two cases of a host write, with the cut to 8 bits as a bit field; a host read has no case to make. -/
theorem hostWritesOnlyMode : Obligations.HostWritesOnlyMode := by
  intro s addr v
  refine ⟨?_, fun elsewhere => ?_, rfl⟩
  · rw [onEvent, hostWrite_zero, BitVec.setWidth_eq_extractLsb' (by decide)]
  · rw [onEvent, hostWrite_of_ne_zero elsewhere]

/-! ### The rows of the window's map (R56) -/

/-- The address of an element inside the window loses no bit (R54). -/
theorem toNat_windowAddr {base i : Nat} (h : base + i < 2 ^ 12) : (BitVec.ofNat 12 (base + i)).toNat = base + i :=
  Nat.mod_eq_of_lt h

/-- An address between the rows or above them reads 0 (R57): it misses the range of every row. -/
theorem hostRead_of_unmapped (s : State) {a : WindowAddr}
    (h : 0x005 ≤ a.toNat ∧ a.toNat < 0x008 ∨ 0x016 ≤ a.toNat ∧ a.toNat < 0x040 ∨
      0x07C ≤ a.toNat ∧ a.toNat < 0x100 ∨ 0x280 ≤ a.toNat) : hostRead s a = 0 := by
  simp (disch := omega) only [hostRead, if_neg, dif_neg]

/-- Settles O19, in the order of the map. A register stands at a literal address, which selects its row by evaluation. The
address of an array's element is beyond the rows before the array's and inside the array's own. -/
theorem hostReadsWholeWindow : Obligations.HostReadsWholeWindow := by
  intro s
  refine ⟨rfl, rfl, rfl, rfl, rfl, ?band0, rfl, ?band1, rfl, ?avg, ?thr, ?pix, ?re, ?im, ?raw,
    fun _ => hostRead_of_unmapped s, fun _ v elsewhere => hostWrite_of_ne_zero elsewhere v s⟩
  case band0 | band1 | avg | thr | pix | re | im | raw =>
    intro i
    simp (disch := omega) only [hostRead, toNat_windowAddr, if_neg, dif_neg, dif_pos, Nat.add_sub_cancel_left,
      Fin.getElem_fin, wrapU32]

/-! ### Events and the invariant -/

/-- A host write reaches `MODE` at most, which the invariant does not name. -/
theorem hostWrite_inv (addr : WindowAddr) (v : Word) {s : State} (hs : s.Inv) : (hostWrite addr v s).Inv := by
  by_cases h : addr = 0
  · subst h
    exact hs
  · rwa [hostWrite_of_ne_zero h]

/-- Reset clears every register of the invariant (R41, R201) and keeps the program memory (R64). -/
theorem resetEvent_inv {s : State} (hs : s.Inv) : (resetEvent s).Inv := by
  obtain ⟨-, -, -, -, prog_wf⟩ := hs
  obtain ⟨count_le, cause_iff, faultPc_clear, sweep_le, -⟩ := invariantAtReset
  exact ⟨count_le, cause_iff, faultPc_clear, sweep_le, prog_wf⟩

/-- Settles O13, event by event: a reading that arrives only lengthens a port's queue, and a host read changes nothing. -/
theorem eventsKeepInvariant : Obligations.EventsKeepInvariant := by
  intro e s t hs h
  cases e with
  | stepCore => exact stepKeepsInvariant s t hs h
  | hostWrites addr v => exact Host.Outcome.next.inj h ▸ hostWrite_inv addr v hs
  | resets => exact Host.Outcome.next.inj h ▸ resetEvent_inv hs
  | hostReads | sampleReady | timeReady =>
    obtain rfl := Host.Outcome.next.inj h
    exact hs

end Sys2Proof.Machine
end

section
/-! PROOFS. The fields of a word and the rows of the opcode map (`30_encoding.md` R71, R74): a word is the format F word of its
own fields, and it meets a row when its `op` field is the row's and the bits the row leaves unused are zero. -/

namespace Sys2Proof

/-! ### Fields of a word (R71) -/

/-- A field that a mask covers is zero in a word that has all bits of the mask zero. -/
theorem field_eq_zero {w u : Word} (hz : w &&& u = 0) {a n : Nat} (covered : u.extractLsb' a n = BitVec.allOnes n) :
    w.extractLsb' a n = 0 := by
  have h : (w &&& u).extractLsb' a n = 0 := by rw [hz]; exact BitVec.extractLsb'_zero
  rwa [BitVec.extractLsb'_and, covered, BitVec.and_allOnes] at h

/-- A word is its fields in the order of format F, with what stands in the two always-zero pairs. -/
theorem append_fields (w : Word) : (w.extractLsb' 24 8 ++ w.extractLsb' 23 1 ++ w.extractLsb' 22 1 ++ w.extractLsb' 21 1 ++
    w.extractLsb' 18 3 ++ w.extractLsb' 16 2 ++ w.extractLsb' 14 2 ++ w.extractLsb' 8 6 ++ w.extractLsb' 6 2 ++
    w.extractLsb' 0 6 : Word) = w := by
  iterate 9 rw [BitVec.extractLsb'_append_extractLsb'_eq_extractLsb' (by rfl)]
  exact BitVec.extractLsb'_eq_self

/-- A word whose two always-zero pairs are zero is the format F word of its fields. -/
theorem formatF_of_fields {w : Word} {op : BitVec 8} {b d c : BitVec 1} {k : BitVec 3} {n : BitVec 2} {l s : BitVec 6}
    (hop : opField w = op) (hb : w.extractLsb' 23 1 = b) (hd : w.extractLsb' 22 1 = d) (hc : w.extractLsb' 21 1 = c)
    (hk : colorField w = k) (hn : w.extractLsb' 16 2 = n) (hz : w.extractLsb' 14 2 = 0) (hl : lenField w = l)
    (hy : w.extractLsb' 6 2 = 0) (hs : startField w = s) : formatF op b d c k n l s = w := by
  subst hop hb hd hc hk hn hl hs
  have whole := append_fields w
  rwa [hz, hy] at whole

@[simp] theorem bankBit_bankField (w : Word) : bankBit (bankField w) = w.extractLsb' 23 1 := by
  rcases BitVec.eq_zero_or_eq_one (w.extractLsb' 23 1) with e | e <;> rw [bankField, e] <;> rfl

@[simp] theorem dirBit_dirField (w : Word) : dirBit (dirField w) = w.extractLsb' 22 1 := by
  rcases BitVec.eq_zero_or_eq_one (w.extractLsb' 22 1) with e | e <;> rw [dirField, e] <;> rfl

@[simp] theorem ceilBit_ceilField (w : Word) : ceilBit (ceilField w) = w.extractLsb' 21 1 := by
  rcases BitVec.eq_zero_or_eq_one (w.extractLsb' 21 1) with e | e <;> rw [ceilField, e] <;> rfl

/-- The bands and the two bits of the `band` field: the reserved value 3 is no band (R16, R71). -/
theorem bandField_eq_some {w : Word} {b : Band} : bandField w = some b ↔ w.extractLsb' 16 2 = bandCode b := by
  unfold bandField
  generalize w.extractLsb' 16 2 = n
  revert n
  cases b <;> decide

/-- The codes of the three bands are all values of the field but the reserved one. -/
theorem exists_bandCode {n : BitVec 2} : (∃ b, n = bandCode b) ↔ n ≠ 3#2 := by
  have cover : ∀ n : BitVec 2, n = bandCode .bass ∨ n = bandCode .mid ∨ n = bandCode .treble ∨ n = 3#2 := by decide
  constructor
  · rintro ⟨b, rfl⟩
    cases b <;> decide
  · intro legal
    rcases cover n with e | e | e | e
    exacts [⟨_, e⟩, ⟨_, e⟩, ⟨_, e⟩, absurd e legal]

/-! ### A word and a row of the opcode map (R74) -/

/-- The `op` field of an operation's row. -/
def opCode (i : Instr) : BitVec 8 := opField (opcodeRow i).value

/-- The bits below the `op` field that an operation's row fixes: they have to be zero (R72). -/
def unusedBits (i : Instr) : Word := (opcodeRow i).mask &&& 0x00FFFFFF

/-- Two words agree when their `op` fields and their lower 24 bits do. -/
theorem word_ext {v w : Word} (hop : opField v = opField w) (low : v &&& 0x00FFFFFF = w &&& 0x00FFFFFF) : v = w := by
  have low24 : v.extractLsb' 0 24 = w.extractLsb' 0 24 := by
    have h := congrArg (BitVec.extractLsb' 0 24) low
    have ones : (0x00FFFFFF : Word).extractLsb' 0 24 = BitVec.allOnes 24 := by decide
    simpa only [BitVec.extractLsb'_and, ones, BitVec.and_allOnes] using h
  have split (x : Word) : (opField x ++ x.extractLsb' 0 24 : Word) = x := by
    unfold opField
    rw [BitVec.extractLsb'_append_extractLsb'_eq_extractLsb' (by rfl)]
    exact BitVec.extractLsb'_eq_self
  rw [← split v, ← split w, hop, low24]

/-- One operation of each row of the opcode map, in the map's order. -/
def opcodeMap : List Instr :=
  [.nop, .halt, .endc, .dispatch, .ret, .acq, .reload, .dcr, .iir, .win, .fft, .mag, .band 0, .nrg 0, .norm 0, .smooth,
    .clear, .tier 0 .up 0 .bass 0, .ebkt 0 .up 0 0 0, .wash 0 .c600 0 0 0, .rawc 0 0, .sweep 0 .c600 0 0 0, .commit]

/-- Every operation has its row in the map. -/
theorem opcodeRow_mem (i : Instr) : opcodeRow i ∈ opcodeMap.map opcodeRow := by
  cases i <;> simp [opcodeMap, opcodeRow]

/-- What holds of every row of the map holds of the row of every operation. -/
theorem opcodeRow_of_map {P : OpcodeRow → Prop} (h : ∀ i ∈ opcodeMap, P (opcodeRow i)) (i : Instr) : P (opcodeRow i) := by
  obtain ⟨j, hj, same⟩ := List.mem_map.mp (opcodeRow_mem i)
  exact same ▸ h j hj

/-- The masked bits match a row exactly when the `op` field is the row's and every bit the row leaves unused is zero: each
mask covers the whole `op` field, and no row asks for a bit below it to be 1. -/
theorem matches_iff {w : Word} {i : Instr} :
    w &&& (opcodeRow i).mask = (opcodeRow i).value ↔ opField w = opCode i ∧ w &&& unusedBits i = 0 := by
  have op_covered : opField (opcodeRow i).mask = BitVec.allOnes 8 :=
    opcodeRow_of_map (P := fun r => opField r.mask = BitVec.allOnes 8) (by decide) i
  have low_clear : (opcodeRow i).value &&& 0x00FFFFFF = 0 :=
    opcodeRow_of_map (P := fun r => r.value &&& 0x00FFFFFF = 0) (by decide) i
  have op_kept : opField (w &&& (opcodeRow i).mask) = opField w := by
    rw [opField, BitVec.extractLsb'_and, ← opField, ← opField, op_covered, BitVec.and_allOnes]
  constructor
  · intro h
    exact ⟨by rw [opCode, ← h, op_kept], by rw [unusedBits, ← BitVec.and_assoc, h, low_clear]⟩
  · rintro ⟨hop, hz⟩
    exact word_ext (op_kept.trans hop) (by rw [BitVec.and_assoc, low_clear]; exact hz)

/-- The mnemonic tells the rows apart (R74). -/
theorem opcodeRow_of_mnemonic {i j : Instr} (h : (opcodeRow i).mnemonic = (opcodeRow j).mnemonic) :
    opcodeRow i = opcodeRow j := by
  have distinct : ((opcodeMap.map opcodeRow).map OpcodeRow.mnemonic).Nodup := by decide
  exact List.inj_on_of_nodup_map distinct (opcodeRow_mem i) (opcodeRow_mem j) h

end Sys2Proof
end

section
/-! PROOFS. The decoder row by row (`30_encoding.md` R72 to R76): what the arm of an operation answers, the inversion of
`decode`, and the encoder and the opcode map against it. -/

namespace Sys2Proof

/-! ### The arms of the decoder -/

/-- What the decoder makes of a word that matches the row of the given operation: that operation with the operands in the
word's fields, if the row's extra constraint holds. The given operation's own operands are not looked at. -/
def decodeOperands : Instr → Word → Decoded
  | .band _, w => .instr (.band (bankField w))
  | .nrg _, w => .instr (.nrg (bankField w))
  | .norm _, w => .instr (.norm (bankField w))
  | .tier _ _ _ _ _, w =>
    match bandField w with
    | some b => .instr (.tier (bankField w) (dirField w) (colorField w) b (startField w))
    | none => .illegal .reservedBand
  | .ebkt _ _ _ _ _, w =>
    requireLength w (.ebkt (bankField w) (dirField w) (colorField w) (lenField w) (startField w))
  | .wash _ _ _ _ _, w =>
    requireLength w (.wash (bankField w) (ceilField w) (colorField w) (lenField w) (startField w))
  | .rawc _ _, w => .instr (.rawc (colorField w) (startField w))
  | .sweep _ _ _ _ _, w =>
    requireLength w (.sweep (bankField w) (ceilField w) (colorField w) (lenField w) (startField w))
  | i, _ => .instr i

/-- The arm of `decode` for each operation: its `op` field selects it, and its unused bits are the row's. -/
theorem decode_of_opField {w : Word} {i : Instr} (h : opField w = opCode i) :
    decode w = requireZero w (unusedBits i) (decodeOperands i w) := by
  unfold decode
  rw [h, opCode, unusedBits]
  cases i <;> (rw [opcodeRow]; rfl)

/-- Any other `op` field is illegal (R75). -/
theorem decode_of_unknownOp {w : Word} (h : ∀ i, opField w ≠ opCode i) : decode w = .illegal (.unknownOp (opField w)) := by
  have other : ∀ n ∈ opcodeMap.map fun i => (opCode i).toNat, (opField w).toNat ≠ n := by
    intro n hn
    obtain ⟨i, -, rfl⟩ := List.mem_map.mp hn
    exact fun e => h i (BitVec.eq_of_toNat_eq e)
  unfold decode
  split
  case h_24 => rfl
  all_goals exact absurd ‹(opField w).toNat = _› (other _ (by decide))

/-- A word whose unused bits are checked decodes when they are zero and the rest of the check accepts it. -/
theorem requireZero_eq_instr {w u : Word} {d : Decoded} {i : Instr} :
    requireZero w u d = .instr i ↔ w &&& u = 0 ∧ d = .instr i := by
  by_cases h : w &&& u = 0
  · rw [requireZero, if_pos h]
    exact (and_iff_right h).symm
  · rw [requireZero, if_neg h]
    exact iff_of_false nofun fun ⟨hz, _⟩ => h hz

theorem requireLength_eq_instr {w : Word} {i j : Instr} : requireLength w j = .instr i ↔ lenField w ≠ 0 ∧ j = i := by
  by_cases h : lenField w = 0
  · rw [requireLength, if_pos h]
    exact iff_of_false nofun fun ⟨len_ne, _⟩ => len_ne h
  · rw [requireLength, if_neg h, Decoded.instr.injEq]
    exact (and_iff_right h).symm

/-- `TIER` accepts the three band codes and takes its operands from their fields. -/
theorem decodeOperands_tier {w : Word} {bank : Bank} {dir : Dir} {color : BitVec 3} {band : Band} {start : BitVec 6}
    {i : Instr} : decodeOperands (.tier bank dir color band start) w = .instr i ↔
      ∃ b, w.extractLsb' 16 2 = bandCode b ∧ .tier (bankField w) (dirField w) (colorField w) b (startField w) = i := by
  simp only [decodeOperands, ← bandField_eq_some]
  cases bandField w <;> simp

/-! ### The inversion of `decode` -/

/-- Reading the operands keeps the row, and reading them again gives the same operation. -/
theorem decodeOperands_idem {w : Word} {i j : Instr} (h : decodeOperands j w = .instr i) :
    opcodeRow i = opcodeRow j ∧ decodeOperands i w = .instr i := by
  cases j with
  | tier =>
    obtain ⟨b, hb, rfl⟩ := decodeOperands_tier.mp h
    exact ⟨rfl, decodeOperands_tier.mpr ⟨b, hb, rfl⟩⟩
  | ebkt | wash | sweep =>
    obtain ⟨-, rfl⟩ := requireLength_eq_instr.mp h
    exact ⟨rfl, h⟩
  | _ =>
    obtain rfl := Decoded.instr.inj h
    exact ⟨rfl, h⟩

/-- A word that matches a row decodes to what the row's operands give. -/
theorem decode_of_matches {w : Word} {i j : Instr} (hm : w &&& (opcodeRow j).mask = (opcodeRow j).value)
    (h : decodeOperands j w = .instr i) : decode w = .instr i := by
  obtain ⟨hop, hz⟩ := matches_iff.mp hm
  rw [decode_of_opField hop]
  exact requireZero_eq_instr.mpr ⟨hz, h⟩

/-- The inversion of `decode`: a word decodes to an operation exactly when it matches the operation's row and its fields
hold the operation's operands. -/
theorem decode_eq_instr_iff {w : Word} {i : Instr} : decode w = .instr i ↔
    w &&& (opcodeRow i).mask = (opcodeRow i).value ∧ decodeOperands i w = .instr i := by
  refine ⟨fun h => ?_, fun ⟨hm, ho⟩ => decode_of_matches hm ho⟩
  by_cases known : ∃ j, opField w = opCode j
  · obtain ⟨j, hop⟩ := known
    rw [decode_of_opField hop] at h
    obtain ⟨hz, hj⟩ := requireZero_eq_instr.mp h
    obtain ⟨same_row, ho⟩ := decodeOperands_idem hj
    exact ⟨same_row ▸ matches_iff.mpr ⟨hop, hz⟩, ho⟩
  · rw [decode_of_unknownOp (not_exists.mp known)] at h
    nomatch h

/-! ### The encoder against the decoder -/

theorem ite_bankBit (bank : Bank) : (if bankBit bank = 1#1 then 1 else 0) = bank := by
  revert bank
  decide

theorem ite_dirBit (dir : Dir) : (if dirBit dir = 1#1 then Dir.down else .up) = dir := by
  cases dir <;> rfl

theorem ite_ceilBit (ceil : Ceil) : (if ceilBit ceil = 1#1 then Ceil.c1500 else .c600) = ceil := by
  cases ceil <;> rfl

/-- The encoder writes the row of its operation (R72, R74). -/
theorem encode_matches (i : Instr) : encode i &&& (opcodeRow i).mask = (opcodeRow i).value := by
  show Laws.RowMatch.Statement i
  cases i with
  | nop => exact Laws.RowMatch.nop
  | halt => exact Laws.RowMatch.halt
  | endc => exact Laws.RowMatch.endc
  | dispatch => exact Laws.RowMatch.dispatch
  | ret => exact Laws.RowMatch.ret
  | acq => exact Laws.RowMatch.acq
  | reload => exact Laws.RowMatch.reload
  | dcr => exact Laws.RowMatch.dcr
  | iir => exact Laws.RowMatch.iir
  | win => exact Laws.RowMatch.win
  | fft => exact Laws.RowMatch.fft
  | mag => exact Laws.RowMatch.mag
  | band bank => exact Laws.RowMatch.band bank
  | nrg bank => exact Laws.RowMatch.nrg bank
  | norm bank => exact Laws.RowMatch.norm bank
  | smooth => exact Laws.RowMatch.smooth
  | clear => exact Laws.RowMatch.clear
  | tier bank dir color band start => exact Laws.RowMatch.tier bank dir color band start
  | ebkt bank dir color len start => exact Laws.RowMatch.ebkt bank dir color len start
  | wash bank ceil color len start => exact Laws.RowMatch.wash bank ceil color len start
  | rawc color start => exact Laws.RowMatch.rawc color start
  | sweep bank ceil color len start => exact Laws.RowMatch.sweep bank ceil color len start
  | commit => exact Laws.RowMatch.commit

/-- The fields of an encoded operation hold its operands. -/
theorem decodeOperands_encode {i : Instr} (wf : wellFormed i = true) : decodeOperands i (encode i) = .instr i := by
  cases i with
  | tier bank dir color band start =>
    exact decodeOperands_tier.mpr ⟨band, by simp [encode], by simp [encode, ite_bankBit, ite_dirBit]⟩
  | ebkt bank dir color len start | wash bank ceil color len start | sweep bank ceil color len start =>
    have len_ne : len ≠ 0 := by simpa [wellFormed] using wf
    exact requireLength_eq_instr.mpr
      ⟨by simpa [encode] using len_ne, by simp [encode, ite_bankBit, ite_dirBit, ite_ceilBit]⟩
  | band | nrg | norm => simp [decodeOperands, encode, ite_bankBit]
  | rawc => simp [decodeOperands, encode]
  | _ => rfl

/-- Settles O1, by the inversion of `decode`. -/
theorem decodeEncodeRoundTrip : Obligations.DecodeEncodeRoundTrip :=
  fun i wf => decode_eq_instr_iff.mpr ⟨encode_matches i, decodeOperands_encode wf⟩

/-- A word that matches its row and holds the operands is no other word than the encoding: each field is an operand, the
`op` field, or zero. -/
theorem encode_of_matches {w : Word} {i : Instr} (hm : w &&& (opcodeRow i).mask = (opcodeRow i).value)
    (ho : decodeOperands i w = .instr i) : encode i = w := by
  obtain ⟨hop, hz⟩ := matches_iff.mp hm
  rw [opCode] at hop
  rw [unusedBits] at hz
  have zero {a n : Nat} := field_eq_zero (a := a) (n := n) hz
  cases i with
  | band bank | nrg bank | norm bank =>
    rw [opcodeRow] at hop zero
    obtain rfl : bankField w = bank := by simpa [decodeOperands] using ho
    exact formatF_of_fields hop (bankBit_bankField w).symm (zero rfl) (zero rfl) (zero rfl) (zero rfl) (zero rfl)
      (zero rfl) (zero rfl) (zero rfl)
  | tier bank dir color band start =>
    rw [opcodeRow] at hop zero
    obtain ⟨b, hb, same⟩ := decodeOperands_tier.mp ho
    obtain ⟨rfl, rfl, rfl, rfl, rfl⟩ := Instr.tier.inj same
    exact formatF_of_fields hop (bankBit_bankField w).symm (dirBit_dirField w).symm (zero rfl) rfl hb (zero rfl)
      (zero rfl) (zero rfl) rfl
  | ebkt bank dir color len start =>
    rw [opcodeRow] at hop zero
    obtain ⟨-, same⟩ := requireLength_eq_instr.mp ho
    obtain ⟨rfl, rfl, rfl, rfl, rfl⟩ := Instr.ebkt.inj same
    exact formatF_of_fields hop (bankBit_bankField w).symm (dirBit_dirField w).symm (zero rfl) rfl (zero rfl) (zero rfl)
      rfl (zero rfl) rfl
  | wash bank ceil color len start | sweep bank ceil color len start =>
    rw [opcodeRow] at hop zero
    obtain ⟨-, same⟩ := requireLength_eq_instr.mp ho
    obtain ⟨rfl, rfl, rfl, rfl, rfl⟩ := by simpa only [Instr.wash.injEq, Instr.sweep.injEq] using same
    exact formatF_of_fields hop (bankBit_bankField w).symm (zero rfl) (ceilBit_ceilField w).symm rfl (zero rfl) (zero rfl)
      rfl (zero rfl) rfl
  | rawc color start =>
    rw [opcodeRow] at hop zero
    obtain ⟨rfl, rfl⟩ := Instr.rawc.inj (Decoded.instr.inj ho)
    exact formatF_of_fields hop (zero rfl) (zero rfl) (zero rfl) rfl (zero rfl) (zero rfl) (zero rfl) (zero rfl) rfl
  -- the row of an operation without operands masks no bit out
  | _ => exact hm.symm.trans BitVec.and_allOnes

/-- Only well-formed operations are decoded: the `len` check of R75 is the one `wellFormed` asks for. -/
theorem wellFormed_of_decodeOperands {w : Word} {i : Instr} (ho : decodeOperands i w = .instr i) :
    wellFormed i = true := by
  cases i with
  | ebkt | wash | sweep =>
    obtain ⟨len_ne, same⟩ := requireLength_eq_instr.mp ho
    rw [← same]
    simpa [wellFormed] using len_ne
  | _ => rfl

/-- Settles O2, by the inversion of `decode`. -/
theorem decodedWordIsItsEncoding : Obligations.DecodedWordIsItsEncoding := by
  intro w i h
  obtain ⟨hm, ho⟩ := decode_eq_instr_iff.mp h
  exact ⟨encode_of_matches hm ho, wellFormed_of_decodeOperands ho⟩

/-! ### The opcode map against the decoder -/

/-- The row test in the decoder's terms: the row's extra constraint holds exactly when the decoder accepts the operands. -/
theorem admits_iff {w : Word} {j : Instr} : (opcodeRow j).admits w = true ↔
    w &&& (opcodeRow j).mask = (opcodeRow j).value ∧ ∃ i, decodeOperands j w = .instr i := by
  rw [OpcodeRow.admits, Bool.and_assoc, Bool.and_eq_true, beq_iff_eq]
  refine and_congr_right fun _ => ?_
  cases j with
  | tier =>
    simp only [decodeOperands_tier]
    simp [opcodeRow, ← exists_bandCode]
  | ebkt | wash | sweep => simp [opcodeRow, decodeOperands, requireLength_eq_instr, lenField]
  | _ => simp [opcodeRow, decodeOperands]

/-- Settles O3: the operands' row test, and the mnemonic to find the row again. -/
theorem opcodeMapDecidesOperation : Obligations.OpcodeMapDecidesOperation := by
  intro w j
  constructor
  · intro h
    obtain ⟨hm, i, hi⟩ := admits_iff.mp h
    obtain ⟨same_row, -⟩ := decodeOperands_idem hi
    exact ⟨i, decode_of_matches hm hi, congrArg _ same_row⟩
  · rintro ⟨i, h, same⟩
    obtain ⟨hm, ho⟩ := decode_eq_instr_iff.mp h
    rw [← opcodeRow_of_mnemonic same]
    exact admits_iff.mpr ⟨hm, i, ho⟩

/-- A word is illegal exactly when it meets no row of the opcode map (R75). -/
theorem decode_illegal_iff {w : Word} : (∃ why, decode w = .illegal why) ↔ ∀ j, (opcodeRow j).admits w = false := by
  constructor
  · rintro ⟨why, h⟩ j
    rw [← Bool.not_eq_true, opcodeMapDecidesOperation]
    rintro ⟨i, hi, -⟩
    exact Decoded.noConfusion (h.symm.trans hi)
  · intro unmet
    cases h : decode w with
    | illegal why => exact ⟨why, rfl⟩
    | instr i => exact absurd ((opcodeMapDecidesOperation w i).mpr ⟨i, h, rfl⟩) (by simp [unmet i])

end Sys2Proof
end

section
/-! PROOFS. The step on an illegal word and on an operation placed where it is fetched (`46_control.md` R165). -/

namespace Sys2Proof.Machine

/-- Settles O5: the fault writes are those of `raise`. -/
theorem illegalWordRaisesIllegalOp : Obligations.IllegalWordRaisesIllegalOp := by
  refine ⟨fun _ => decode_illegal_iff, fun s running unmet => ?_, ⟨.unknownOp 0xFF, rfl⟩, rfl⟩
  obtain ⟨why, h⟩ := decode_illegal_iff.mpr unmet
  exact step_of_illegal running h

/-- The word placed at `PROG[PC]` is the word fetched (log 1). -/
theorem fetch_withFetchWord {s : State} (wf : Memory.wf s.cfg.prog = true) (w : Word) :
    fetch (s.withFetchWord 32 w.toNat) = w := by
  rw [fetch, withFetchWord_pc, withFetchWord_prog, Memory.read_write_self wf, Nat.mod_eq_of_lt w.isLt,
    BitVec.ofNat_toNat, BitVec.setWidth_eq]

/-- Settles O6: the fetch reads the placed word, and the round trip decodes it. -/
theorem placedOperationRuns : Obligations.PlacedOperationRuns := by
  intro s i wf prog_wf
  have decoded : decode (fetch (s.withFetchWord 32 (encode i).toNat)) = .instr i := by
    rw [fetch_withFetchWord prog_wf]
    exact decodeEncodeRoundTrip i wf
  exact step_of_instr (withFetchWord_run ..) decoded

end Sys2Proof.Machine
end

section
/-! PROOFS. Sample acquisition (`40_acquire.md` R91, R92): the stored block reading by reading, the working arrays it is
spread into, and `ACQ` and `RELOAD` over both. -/

namespace Sys2Proof.Machine

/-! ### One stored value -/

/-- A reading outside 0 to 4095 is replaced. -/
theorem substitute_of_out {prev : RawSample} {r : Reading} (out : r.toInt < 0 ∨ 4095 < r.toInt) : substitute prev r = prev :=
  if_pos out

/-- A reading in 0 to 4095 is stored as it is: it fits the 12 bits of `RAW` (R34). -/
theorem substitute_of_legal {prev : RawSample} {r : Reading} (legal : 0 ≤ r.toInt ∧ r.toInt ≤ 4095) :
    ((substitute prev r).toNat : Int) = r.toInt := by
  obtain ⟨lo, hi⟩ := legal
  have kept : substitute prev r = BitVec.ofInt 12 r.toInt := if_neg (not_or.mpr ⟨not_lt.mpr lo, not_lt.mpr hi⟩)
  rw [kept, BitVec.toNat_ofInt]
  omega

/-! ### The stored block -/

/-- Each turn of the loop after the first substitutes the value the turn before it stored. -/
theorem getElem_storedFrom_succ (s : State) (prev : RawSample) (i n k : Nat) (h : k + 1 < (storedFrom s prev i n).length) :
    (storedFrom s prev i n)[k + 1] =
      substitute ((storedFrom s prev i n)[k]'(Nat.lt_of_succ_lt h)) (sampleReading s (i + (k + 1))) := by
  induction n generalizing prev i k with
  | zero => exact absurd h (Nat.not_lt_zero _)
  | succ n ih =>
    cases k with
    | zero =>
      cases n with
      | zero => exact absurd h (by simp [storedFrom])
      | succ n => rfl
    | succ k =>
      have later := ih (substitute prev (sampleReading s i)) (i + 1) k (Nat.lt_of_succ_lt_succ h)
      rwa [Nat.add_right_comm i 1, ← Nat.add_assoc] at later

/-- The first sample's substitute is 2048. -/
theorem getElem_acquiredBlock_zero (s : State) : (acquiredBlock s)[0] = substitute 2048 (sampleReading s 0) := rfl

/-- Any other sample's substitute is the value stored before it. -/
theorem getElem_acquiredBlock_succ (s : State) (k : Nat) (h : k + 1 < 128) :
    (acquiredBlock s)[k + 1] = substitute (acquiredBlock s)[k] (sampleReading s (k + 1)) := by
  have turn := getElem_storedFrom_succ s Config.adcMid 0 Config.blockLen k (by rwa [length_storedFrom])
  rwa [Nat.zero_add] at turn

/-- Every element of the block is its reading put through the substitution, over 2048 or the element before it. -/
theorem getElem_acquiredBlock (s : State) (i : Fin 128) :
    ∃ prev, (acquiredBlock s)[i] = substitute prev (sampleReading s i) ∧ (i.val = 0 → prev = 2048) ∧
      ∀ j : Fin 128, j.val + 1 = i.val → prev = (acquiredBlock s)[j] := by
  obtain ⟨k, hk⟩ := i
  cases k with
  | zero => exact ⟨_, getElem_acquiredBlock_zero s, fun _ => rfl, fun j hj => absurd hj (Nat.succ_ne_zero _)⟩
  | succ k =>
    refine ⟨_, getElem_acquiredBlock_succ s k hk, fun h => absurd h (Nat.succ_ne_zero _), fun j hj => ?_⟩
    obtain rfl : j = ⟨k, Nat.lt_of_succ_lt hk⟩ := Fin.ext (Nat.succ.inj hj)
    rfl

/-! ### The working arrays -/

/-- A sample in Q8 is exact: 12 bits times 256 do not reach the sign bit. -/
@[simp] theorem getElem_q8Block_toInt (raw : Vector RawSample 128) (i : Nat) (h : i < 128) :
    (q8Block raw)[i].toInt = raw[i].toNat * 256 := by
  have sample_lt := raw[i].isLt
  rw [q8Block, getElem_tabulate, rawAt_eq raw h, dataOne_eq]
  exact wrapS32_toInt_of_range (by omega) (by omega)

@[simp] theorem getElem_zeroBlock (i : Nat) (h : i < 128) : zeroBlock[i] = 0 := getElem_tabulate ..

/-! ### `ACQ` and `RELOAD` -/

theorem exec_acq (s : State) : exec .acq s = .next (advance { consumeSamples 128 s with
    raw := acquiredBlock s, re := q8Block (acquiredBlock s), im := zeroBlock }) := rfl

theorem exec_reload (s : State) : exec .reload s = .next (advance { s with re := q8Block s.raw, im := zeroBlock }) := rfl

/-- Settles O26: the stored block by `getElem_acquiredBlock` and the two cases of the substitution. -/
theorem acqStoresBlock : Obligations.AcqStoresBlock := by
  refine ⟨rfl, fun s => ⟨acquiredBlock s, q8Block (acquiredBlock s), zeroBlock, exec_acq s, fun i => ?_, fun i =>
    ⟨getElem_q8Block_toInt _ i i.isLt, getElem_zeroBlock i i.isLt⟩⟩⟩
  obtain ⟨prev, stored, first, later⟩ := getElem_acquiredBlock s i
  rw [stored]
  refine ⟨substitute_of_legal, fun out zero => ?_, fun out j before => ?_⟩
  · rw [substitute_of_out out, first zero]
    rfl
  · rw [substitute_of_out out, later j before]

/-- Settles O27: both operations fill the working arrays from `RAW` in the same way. -/
theorem reloadRestoresAcquiredArrays : Obligations.ReloadRestoresAcquiredArrays := by
  refine ⟨rfl, fun s => ⟨q8Block s.raw, zeroBlock, exec_reload s, fun i =>
    ⟨getElem_q8Block_toInt _ i i.isLt, getElem_zeroBlock i i.isLt⟩⟩, fun s t u v acquired same reloaded => ?_⟩
  obtain rfl := Host.Outcome.next.inj (exec_acq s ▸ acquired)
  obtain rfl := Host.Outcome.next.inj (exec_reload u ▸ reloaded)
  exact ⟨congrArg q8Block same, rfl⟩

end Sys2Proof.Machine
end

section
/-! PROOFS. The time-domain stages (`41_analyzer_time.md` R100, R101, R103): how far a rounding and a wrap can take a value
from 0, then each stage element by element, and what follows for the block's mean and its peak. -/

namespace Sys2Proof.Machine

/-! ### Magnitudes -/

/-- The word an exact value wraps to is never further from 0 than the value (R13). -/
theorem abs_toInt_wrapS32_le (v : Int) : |(wrapS32 v).toInt| ≤ |v| := by
  by_cases fits : -2 ^ 31 ≤ v ∧ v < 2 ^ 31
  · obtain ⟨lo, hi⟩ := fits
    rw [wrapS32_toInt_of_range lo hi]
  · have word_le : |(wrapS32 v).toInt| ≤ 2 ^ 31 := abs_le.mpr ⟨BitVec.le_toInt _, BitVec.toInt_lt.le⟩
    have le_value : 2 ^ 31 ≤ |v| := by
      rw [le_abs]
      omega
    exact word_le.trans le_value

/-- Rounding to an integer does not pass an integer bound (R14). -/
theorem abs_roundQ15_le {v m : Int} (h : |v| ≤ 32768 * m) : |roundQ15 v| ≤ m := by
  obtain ⟨lo, hi⟩ := roundQ15_spec v
  rw [abs_le] at h ⊢
  omega

/-! ### `DCR` -/

theorem exec_dcr (s : State) : exec .dcr s = .next (advance { s with re := removeMean s.re }) := rfl

/-- The counted sum over a block is the sum of its elements. -/
theorem sumUp_signedAt (re : Vector Word 128) : sumUp 128 (signedAt re) = ∑ j : Fin 128, re[j].toInt := by
  rw [sumUp_eq_sum, Finset.sum_range]
  exact Finset.sum_congr rfl fun j _ => signedAt_eq re j.isLt

theorem getElem_removeMean (re : Vector Word 128) (i : Nat) (h : i < 128) :
    (removeMean re)[i] = wrapS32 (re[i].toInt - (∑ j : Fin 128, re[j].toInt) / 128) := by
  rw [removeMean, getElem_tabulate, signedAt_eq re h, blockMean_eq, sumUp_signedAt]

/-- Settles O28, element by element. -/
theorem dcrSubtractsBlockMean : Obligations.DcrSubtractsBlockMean :=
  ⟨rfl, fun s => ⟨removeMean s.re, exec_dcr s, fun i => getElem_removeMean s.re i i.isLt⟩⟩

/-- `ACQ` and `RELOAD` leave `RE` as the block of `RAW` in Q8 (R91, R92). -/
theorem re_eq_q8Block {s t : State} (h : exec .acq s = .next t ∨ exec .reload s = .next t) : t.re = q8Block t.raw := by
  rcases h with h | h
  · obtain rfl := Host.Outcome.next.inj (exec_acq s ▸ h)
    rfl
  · obtain rfl := Host.Outcome.next.inj (exec_reload s ▸ h)
    rfl

/-- The model's sum of a block of samples is the sum of its elements. -/
theorem rawSum_eq_sum (raw : Vector RawSample 128) : rawSum raw = ∑ j : Fin 128, (raw[j].toNat : Int) := by
  rw [rawSum, sumUp_eq_sum, Finset.sum_range]
  exact Finset.sum_congr rfl fun j _ => congrArg Nat.cast (rawAt_eq raw j.isLt)

theorem rawSum_bounds (raw : Vector RawSample 128) : 0 ≤ rawSum raw ∧ rawSum raw ≤ 128 * 4095 := by
  have each_le : ∀ j : Fin 128, j ∈ Finset.univ → (raw[j].toNat : Int) ≤ 4095 := fun j _ => by
    have := raw[j].isLt
    omega
  rw [rawSum_eq_sum]
  exact ⟨Finset.sum_nonneg fun j _ => Int.natCast_nonneg _, by simpa using Finset.sum_le_card_nsmul _ _ _ each_le⟩

/-- The sum of a block in Q8. -/
theorem sum_q8Block (raw : Vector RawSample 128) : ∑ j : Fin 128, (q8Block raw)[j].toInt = rawSum raw * 256 := by
  rw [rawSum_eq_sum, Finset.sum_mul]
  exact Finset.sum_congr rfl fun j _ => getElem_q8Block_toInt raw j j.isLt

/-- The mean of a block in Q8 is exact, since 128 divides 256, and no difference leaves the signed range (R100). -/
theorem getElem_removeMean_q8Block_toInt (raw : Vector RawSample 128) (i : Nat) (h : i < 128) :
    (removeMean (q8Block raw))[i].toInt = raw[i].toNat * 256 - rawSum raw * 2 := by
  have sample_lt := raw[i].isLt
  obtain ⟨lo, hi⟩ := rawSum_bounds raw
  have mean : rawSum raw * 256 / 128 = rawSum raw * 2 := by omega
  rw [getElem_removeMean _ _ h, sum_q8Block, mean, getElem_q8Block_toInt]
  exact wrapS32_toInt_of_range (by omega) (by omega)

/-- Settles O29: the differences are exact, so they sum to the block's sum less 128 times its mean, and 4095 bounds both a
sample and the mean of the samples. -/
theorem dcrSumIsZeroAfterAcquisition : Obligations.DcrSumIsZeroAfterAcquisition := by
  intro s t u acquired removed
  obtain rfl := Host.Outcome.next.inj (exec_dcr t ▸ removed)
  simp only [advance_re, re_eq_q8Block acquired, Fin.getElem_fin, getElem_removeMean_q8Block_toInt]
  constructor
  · calc ∑ i : Fin 128, ((t.raw[i].toNat : Int) * 256 - rawSum t.raw * 2)
        = rawSum t.raw * 256 - 128 * (rawSum t.raw * 2) := by
          rw [Finset.sum_sub_distrib, ← Finset.sum_mul, ← rawSum_eq_sum, Fin.sum_const, nsmul_eq_mul, Nat.cast_ofNat]
      _ = 0 := by ring
  · intro i
    have sample_lt := t.raw[i.val].isLt
    obtain ⟨lo, hi⟩ := rawSum_bounds t.raw
    rw [abs_le]
    omega

/-! ### `IIR` -/

theorem exec_iir (s : State) : exec .iir s = .next (advance { s with re := smoothBlock s.re }) := rfl

/-- Each output of the loop comes from the output before it, which for the first is `y`. -/
theorem getElem_iirFrom (y : Word) (xs : List Word) (k : Nat) (h : k < xs.length) :
    (iirFrom y xs)[k]'(by rwa [length_iirFrom]) =
      iirNext ((y :: iirFrom y xs)[k]'(by simp [length_iirFrom]; omega)) xs[k] := by
  induction xs generalizing y k with
  | nil => exact absurd h (Nat.not_lt_zero k)
  | cons x rest ih =>
    cases k with
    | zero => rfl
    | succ k => exact ih (iirNext y x) k (Nat.lt_of_succ_lt_succ h)

theorem getElem_iirList_zero (xs : List Word) (h : 0 < xs.length) :
    (iirList xs)[0]'(by rwa [length_iirList]) = xs[0] := by
  cases xs with
  | nil => exact absurd h (Nat.lt_irrefl 0)
  | cons x rest => rfl

theorem getElem_iirList_succ (xs : List Word) (k : Nat) (h : k + 1 < xs.length) :
    (iirList xs)[k + 1]'(by rwa [length_iirList]) =
      iirNext ((iirList xs)[k]'(by rw [length_iirList]; omega)) xs[k + 1] := by
  cases xs with
  | nil => exact absurd h (Nat.not_lt_zero _)
  | cons x rest => exact getElem_iirFrom x rest k (Nat.lt_of_succ_lt_succ h)

theorem getElem_smoothBlock_zero (re : Vector Word 128) : (smoothBlock re)[0] = re[0] :=
  getElem_iirList_zero re.toList (by simp)

theorem getElem_smoothBlock_succ (re : Vector Word 128) (k : Nat) (h : k + 1 < 128) :
    (smoothBlock re)[k + 1] = iirNext (smoothBlock re)[k] re[k + 1] :=
  getElem_iirList_succ re.toList k (by simpa using h)

/-- Settles O30: the loop's two equations, with the coefficients in place. -/
theorem iirFollowsRecurrence : Obligations.IirFollowsRecurrence := by
  refine ⟨rfl, fun s => ⟨smoothBlock s.re, exec_iir s, getElem_smoothBlock_zero s.re, fun i j before => ?_⟩⟩
  obtain ⟨i, hi⟩ := i
  obtain rfl : j.val + 1 = i := before
  exact (getElem_smoothBlock_succ s.re j hi).trans (iirNext_eq ..)

/-- What holds of every input and is kept by the recurrence holds of every output. -/
theorem smoothBlock_induction {P : Word → Prop} {re : Vector Word 128} (input : ∀ i : Fin 128, P re[i])
    (turn : ∀ y x, P y → P x → P (iirNext y x)) (i : Fin 128) : P (smoothBlock re)[i] := by
  obtain ⟨k, hk⟩ := i
  induction k with
  | zero => exact getElem_smoothBlock_zero re ▸ input 0
  | succ k ih =>
    have next := turn _ _ (ih (Nat.lt_of_succ_lt hk)) (input ⟨k + 1, hk⟩)
    exact getElem_smoothBlock_succ re k hk ▸ next

/-- The two coefficients add up to 1.0, so the recurrence stays within the bound of its arguments (R101, R102). -/
theorem abs_iirNext_le {M : Int} {y x : Word} (hy : |y.toInt| ≤ M) (hx : |x.toInt| ≤ M) : |(iirNext y x).toInt| ≤ M := by
  rw [iirNext, iirA_toInt, iirB_toInt]
  refine (abs_toInt_wrapS32_le _).trans (abs_roundQ15_le ?_)
  rw [abs_le] at *
  omega

/-- For the same reason the recurrence keeps a value it is given twice. -/
theorem iirNext_self (w : Word) : iirNext w w = w := by
  have one : 22938 * w.toInt + 9830 * w.toInt = w.toInt * 32768 := by ring
  rw [iirNext, iirA_toInt, iirB_toInt, one, roundQ15_one, wrapS32_of_toInt]

/-- Settles O31: the recurrence keeps a bound, and it keeps the one value of a constant block. -/
theorem iirPeakNeverGrows : Obligations.IirPeakNeverGrows := by
  intro s t smoothed
  obtain rfl := Host.Outcome.next.inj (exec_iir s ▸ smoothed)
  refine ⟨fun M bound => smoothBlock_induction (P := fun w => |w.toInt| ≤ M) bound fun _ _ => abs_iirNext_le,
    fun constant => ?_⟩
  have all_first : ∀ i : Fin 128, (smoothBlock s.re)[i] = s.re[0] :=
    smoothBlock_induction (P := (· = s.re[0])) (fun i => constant i 0) fun y x hy hx => by rw [hy, hx, iirNext_self]
  exact Vector.ext fun i hi => (all_first ⟨i, hi⟩).trans (constant 0 ⟨i, hi⟩)

/-! ### `WIN` -/

theorem exec_win (s : State) : exec .win s = .next (advance { s with re := windowBlock s.re }) := rfl

theorem getElem_windowBlock (re : Vector Word 128) (i : Nat) (h : i < 128) :
    (windowBlock re)[i] = wrapS32 (roundQ15 (re[i].toInt * window i)) := by
  rw [windowBlock, getElem_tabulate, signedAt_eq re h]

/-- Every word of the window lies between 0 and 1.0, both excluded: the table of R104, word by word (R103). -/
theorem window_bounds : ∀ i : Fin 128, 0 < window i ∧ window i ≤ 32763 := by decide +kernel

/-- The window enlarges no element (R103). -/
theorem abs_windowBlock_le (re : Vector Word 128) (i : Fin 128) : |(windowBlock re)[i].toInt| ≤ |re[i].toInt| := by
  obtain ⟨pos, le⟩ := window_bounds i
  have product_le : |re[i].toInt * window i| ≤ 32768 * |re[i].toInt| := by
    rw [abs_mul, abs_of_pos pos, mul_comm]
    exact mul_le_mul_of_nonneg_right (by omega) (abs_nonneg _)
  rw [Fin.getElem_fin, getElem_windowBlock re i i.isLt]
  exact (abs_toInt_wrapS32_le _).trans (abs_roundQ15_le product_le)

/-- Settles O32, element by element. -/
theorem winMultipliesByWindow : Obligations.WinMultipliesByWindow := by
  refine ⟨rfl, fun s => ⟨windowBlock s.re, exec_win s, fun i => ?_⟩⟩
  obtain ⟨pos, le⟩ := window_bounds i
  exact ⟨getElem_windowBlock s.re i i.isLt, pos, le, abs_windowBlock_le s.re i⟩

end Sys2Proof.Machine
end

section
/-! PROOFS. The stages of the FFT engine (`42_fft.md` R112, R113): the butterfly's product, and a stage as its butterflies done
in place, in any order. -/

namespace Sys2Proof.Machine

/-! ### The butterfly's product (R113) -/

theorem twiddle_zero : twiddleRe 0 = 32768 ∧ twiddleIm 0 = 0 := by decide
theorem twiddle_quarter : twiddleRe 32 = 0 ∧ twiddleIm 32 = -32768 := by decide

/-- By `W^0 = 1` the product is the operand. -/
theorem product_of_twiddle_zero (x : Spectrum) {b : Butterfly} (hk : b.k = 0) :
    productRe x b = signedAt x.re b.q ∧ productIm x b = signedAt x.im b.q := by
  obtain ⟨re, im⟩ := twiddle_zero
  simp [productRe, productIm, hk, re, im]

/-- By `W^32 = -j` it is the operand turned by a quarter, exactly. -/
theorem product_of_twiddle_quarter (x : Spectrum) {b : Butterfly} (hk : b.k = 32) :
    productRe x b = signedAt x.im b.q ∧ productIm x b = -signedAt x.re b.q := by
  obtain ⟨re, im⟩ := twiddle_quarter
  rw [productRe, productIm, hk, re, im, mul_zero, mul_zero, zero_sub, add_zero, ← mul_neg, neg_neg, mul_neg, ← neg_mul]
  exact ⟨roundQ15_one _, roundQ15_one _⟩

/-- The product of a zero operand is zero. -/
theorem product_of_operand_zero {x : Spectrum} {b : Butterfly} (re : signedAt x.re b.q = 0) (im : signedAt x.im b.q = 0) :
    productRe x b = 0 ∧ productIm x b = 0 := by
  simp [productRe, productIm, re, im, roundQ15_eq]

/-- Settles O33: the definition with R14's rounding written out, and the two exact twiddles. -/
theorem butterflyProduct : Obligations.ButterflyProduct := by
  intro x p q k
  simp only [Fin.getElem_fin, ← signedAt_eq _ q.isLt]
  exact ⟨rfl, rfl, fun hk => product_of_twiddle_zero x hk, fun hk => product_of_twiddle_quarter x hk⟩

/-! ### One butterfly in place -/

/-- Index `i` is one of the butterfly's pair. -/
def Butterfly.Touches (b : Butterfly) (i : Nat) : Prop := i = b.p ∨ i = b.q

/-- Two butterflies touch disjoint pairs. -/
def Butterfly.Apart (b c : Butterfly) : Prop := ∀ i, b.Touches i → ¬ c.Touches i

theorem Butterfly.Apart.symm {b c : Butterfly} (h : b.Apart c) : c.Apart b := fun i hc hb => h i hb hc

/-- Both parts of the element at index `i`, where there is one. -/
def Spectrum.cell (x : Spectrum) (i : Nat) : Option Word × Option Word := (x.re[i]?, x.im[i]?)

theorem cell_eq_iff {x y : Spectrum} {i : Nat} : x.cell i = y.cell i ↔ x.re[i]? = y.re[i]? ∧ x.im[i]? = y.im[i]? :=
  Prod.mk.injEq .. ▸ Iff.rfl

/-- Spectra with the same elements are the same. -/
theorem spectrum_ext {x y : Spectrum} (h : ∀ i, i < 128 → x.cell i = y.cell i) : x = y := by
  obtain ⟨xr, xi⟩ := x
  obtain ⟨yr, yi⟩ := y
  rw [Spectrum.mk.injEq]
  exact ⟨Vector.ext fun i hi => by simpa [hi] using (cell_eq_iff.mp (h i hi)).1,
    Vector.ext fun i hi => by simpa [hi] using (cell_eq_iff.mp (h i hi)).2⟩

/-- A butterfly leaves every element outside its pair. -/
theorem cell_butterflyInPlace_of_not_touches (x : Spectrum) {b : Butterfly} {i : Nat} (h : ¬ b.Touches i) :
    (butterflyInPlace x b).cell i = x.cell i := by
  obtain ⟨hp, hq⟩ := not_or.mp h
  simp [Spectrum.cell, butterflyInPlace, Ne.symm hp, Ne.symm hq]

/-- What a butterfly writes comes from its pair alone. -/
theorem cell_butterflyInPlace_congr {x y : Spectrum} {b : Butterfly} {i : Nat} (hb : b.Touches i)
    (hp : x.cell b.p = y.cell b.p) (hq : x.cell b.q = y.cell b.q) :
    (butterflyInPlace x b).cell i = (butterflyInPlace y b).cell i := by
  obtain ⟨pre, pim⟩ := cell_eq_iff.mp hp
  obtain ⟨qre, qim⟩ := cell_eq_iff.mp hq
  rcases hb with rfl | rfl <;>
    simp [Spectrum.cell, butterflyInPlace, productRe, productIm, signedAt, Vector.getElem?_setIfInBounds, pre, pim, qre, qim]

/-! ### Butterflies one after the other -/

/-- Butterflies that do not touch an element leave it. -/
theorem cell_foldl_of_not_touches (x : Spectrum) {l : List Butterfly} {i : Nat} (h : ∀ b ∈ l, ¬ b.Touches i) :
    (l.foldl butterflyInPlace x).cell i = x.cell i := by
  induction l generalizing x with
  | nil => rfl
  | cons c rest ih =>
    obtain ⟨hc, hrest⟩ := List.forall_mem_cons.mp h
    exact (ih _ hrest).trans (cell_butterflyInPlace_of_not_touches x hc)

/-- Among butterflies on disjoint pairs each writes what it would write alone: none before it changes its pair, and none after
it changes what it wrote. -/
theorem cell_foldl_of_mem (x : Spectrum) {l : List Butterfly} (apart : l.Pairwise Butterfly.Apart) {b : Butterfly}
    (hb : b ∈ l) {i : Nat} (hi : b.Touches i) : (l.foldl butterflyInPlace x).cell i = (butterflyInPlace x b).cell i := by
  induction l generalizing x with
  | nil => nomatch hb
  | cons c rest ih =>
    obtain ⟨apart_c, apart_rest⟩ := List.pairwise_cons.mp apart
    rcases List.mem_cons.mp hb with rfl | later
    · exact cell_foldl_of_not_touches _ fun d hd => apart_c d hd i hi
    · have kept (j : Nat) (hj : b.Touches j) : (butterflyInPlace x c).cell j = x.cell j :=
        cell_butterflyInPlace_of_not_touches x ((apart_c b later).symm j hj)
      exact (ih _ apart_rest later).trans (cell_butterflyInPlace_congr hi (kept _ (.inl rfl)) (kept _ (.inr rfl)))

/-! ### The butterflies of a stage -/

/-- Butterfly `j` of group `g` of stage `t + 1`. -/
def groupButterfly (t g j : Nat) : Butterfly where
  p := g * 2 ^ (t + 1) + j
  q := g * 2 ^ (t + 1) + j + 2 ^ t
  k := j * (128 / 2 ^ (t + 1))

theorem stageButterflies_succ (t : Nat) : stageButterflies (t + 1) =
    (List.range (128 / 2 ^ (t + 1))).flatMap fun g => (List.range (2 ^ t)).map (groupButterfly t g) := rfl

theorem butterflyAt_succ (t i : Nat) : butterflyAt (t + 1) i = groupButterfly t (i / 2 ^ (t + 1)) (i % 2 ^ t) := rfl

/-- An index of a butterfly's pair gives its group and its place in the half group back. -/
theorem group_and_place_of_touches {t g j i : Nat} (hj : j < 2 ^ t) (h : (groupButterfly t g j).Touches i) :
    i / 2 ^ (t + 1) = g ∧ i % 2 ^ t = j := by
  have double : 2 ^ (t + 1) = 2 ^ t * 2 := pow_succ 2 t
  obtain ⟨r, rfl, lt, place⟩ : ∃ r, i = 2 ^ (t + 1) * g + r ∧ r < 2 ^ (t + 1) ∧ r % 2 ^ t = j := by
    rw [mul_comm]
    rcases h with rfl | rfl
    · exact ⟨j, rfl, by omega, Nat.mod_eq_of_lt hj⟩
    · exact ⟨j + 2 ^ t, Nat.add_assoc .., by omega, by rw [Nat.add_mod_right, Nat.mod_eq_of_lt hj]⟩
  constructor
  · rw [Nat.mul_add_div (Nat.two_pow_pos _), Nat.div_eq_of_lt lt, Nat.add_zero]
  · rw [double, mul_assoc, Nat.mul_add_mod, place]

/-- `butterflyAt` holds the index it is asked for. -/
theorem butterflyAt_touches (t i : Nat) : (butterflyAt (t + 1) i).Touches i := by
  have place : i % 2 ^ (t + 1) = i % 2 ^ t + 2 ^ t * (i / 2 ^ t % 2) := by rw [pow_succ, Nat.mod_mul]
  have whole := Nat.div_add_mod' i (2 ^ (t + 1))
  rw [place] at whole
  rcases Nat.mod_two_eq_zero_or_one (i / 2 ^ t) with lower | upper
  · rw [lower, mul_zero, add_zero] at whole
    exact .inl whole.symm
  · rw [upper, mul_one, ← add_assoc] at whole
    exact .inr whole.symm

/-- Every index of the arrays lies in a group of the stage. -/
theorem group_lt {t i : Nat} (ht : t < 7) (hi : i < 128) : i / 2 ^ (t + 1) < 128 / 2 ^ (t + 1) :=
  Nat.div_lt_div_of_lt_of_dvd (Nat.pow_dvd_pow 2 (by omega : t + 1 ≤ 7)) hi

theorem butterflyAt_mem {t i : Nat} (ht : t < 7) (hi : i < 128) : butterflyAt (t + 1) i ∈ stageButterflies (t + 1) := by
  rw [stageButterflies_succ, butterflyAt_succ]
  exact List.mem_flatMap.mpr ⟨_, List.mem_range.mpr (group_lt ht hi),
    List.mem_map_of_mem (List.mem_range.mpr (Nat.mod_lt _ (Nat.two_pow_pos t)))⟩

/-- The butterflies of a stage touch disjoint pairs (R112). -/
theorem stageButterflies_apart (t : Nat) : (stageButterflies (t + 1)).Pairwise Butterfly.Apart := by
  rw [stageButterflies_succ, List.pairwise_flatMap]
  constructor
  · intro g _
    refine List.pairwise_map.mpr ((List.nodup_range).imp_of_mem fun {j j'} hj hj' ne i touches touches' => ne ?_)
    obtain ⟨-, place⟩ := group_and_place_of_touches (List.mem_range.mp hj) touches
    obtain ⟨-, place'⟩ := group_and_place_of_touches (List.mem_range.mp hj') touches'
    exact place.symm.trans place'
  · refine (List.nodup_range).imp fun {g g'} ne b hb b' hb' i touches touches' => ne ?_
    obtain ⟨j, hj, rfl⟩ := List.mem_map.mp hb
    obtain ⟨j', hj', rfl⟩ := List.mem_map.mp hb'
    obtain ⟨group, -⟩ := group_and_place_of_touches (List.mem_range.mp hj) touches
    obtain ⟨group', -⟩ := group_and_place_of_touches (List.mem_range.mp hj') touches'
    exact group.symm.trans group'

/-! ### The model's stage -/

/-- The model's stage leaves at each index what the butterfly that holds the index writes there. -/
theorem cell_fftStage (t : Nat) (x : Spectrum) {i : Nat} (hi : i < 128) :
    (fftStage (t + 1) x).cell i = (butterflyInPlace x (butterflyAt (t + 1) i)).cell i := by
  have halves : (butterflyAt (t + 1) i).q ≠ (butterflyAt (t + 1) i).p := by
    have := Nat.two_pow_pos t
    simp only [butterflyAt_succ, groupButterfly]
    omega
  have touches := butterflyAt_touches t i
  rw [cell_eq_iff]
  simp only [Vector.getElem?_eq_getElem hi, fftStage, getElem_tabulate]
  generalize butterflyAt (t + 1) i = b at *
  rcases touches with rfl | rfl
  · simp [butterflyInPlace, halves, hi]
  · simp [butterflyInPlace, halves]

/-- Settles O34: at each index both sides are what the one butterfly that holds the index writes on its own. -/
theorem fftStageIsAnyButterflyOrder : Obligations.FftStageIsAnyButterflyOrder := by
  rintro (_ | t) x l pos le perm
  · exact absurd pos (by decide)
  have apart : l.Pairwise Butterfly.Apart :=
    perm.symm.pairwise (stageButterflies_apart t) Butterfly.Apart.symm
  refine spectrum_ext fun i hi => ?_
  have mem : butterflyAt (t + 1) i ∈ l := perm.mem_iff.mpr (butterflyAt_mem le hi)
  exact (cell_foldl_of_mem x apart mem (butterflyAt_touches t i)).trans (cell_fftStage t x hi).symm

/-- A stage is its butterflies in the pseudocode's own order. -/
theorem foldl_stageButterflies {t : Nat} (pos : 1 ≤ t) (le : t ≤ 7) (x : Spectrum) :
    (stageButterflies t).foldl butterflyInPlace x = fftStage t x :=
  fftStageIsAnyButterflyOrder t x _ pos le (.refl _)

end Sys2Proof.Machine
end

section
/-! PROOFS. `FFT` (`42_fft.md` R111, R112): the operation against the pseudocode, and the two blocks whose spectrum is exact,
because no butterfly on their way rounds anything. -/

namespace Sys2Proof.Machine

/-! ### The operation -/

theorem exec_fft (s : State) : exec .fft s =
    .next (advance { s with re := (fftBlock ⟨s.re, s.im⟩).re, im := (fftBlock ⟨s.re, s.im⟩).im }) := rfl

/-- The seven stages in their order, each on the output of the one before. -/
theorem fftStages_eq (x : Spectrum) : fftStages x =
    fftStage 7 (fftStage 6 (fftStage 5 (fftStage 4 (fftStage 3 (fftStage 2 (fftStage 1 x)))))) := by
  simp only [fftStages, Config.logLen, forUp_succ, forUp_zero]

/-- Reading seven bits backwards gives seven bits, and reading them backwards again the number itself (R111). -/
theorem bitrev7_involutive : ∀ i : Fin 128, bitrev7 i < 128 ∧ bitrev7 (bitrev7 i) = i := by decide +kernel

theorem getElem_bitReverse (v : Vector Word 128) (k : Nat) (h : k < 128) :
    (bitReverse v)[k] = v[bitrev7 k]'(bitrev7_involutive ⟨k, h⟩).1 := by
  have lt : bitrev7 k < 128 := (bitrev7_involutive ⟨k, h⟩).1
  rw [bitReverse, getElem_tabulate, Vector.getElem?_eq_getElem lt, Option.getD_some]

/-- Gathering by bit reversal is the pseudocode's scatter: element `i` stands at `bitrev7(i)`. -/
theorem getElem?_bitReverse (v : Vector Word 128) (i : Fin 128) : (bitReverse v)[bitrev7 i]? = some v[i] := by
  obtain ⟨lt, back⟩ := bitrev7_involutive i
  rw [Vector.getElem?_eq_getElem lt, getElem_bitReverse]
  simp only [back, Fin.getElem_fin]

/-- Settles O35: the scatter, then each stage's butterflies in place. -/
theorem fftRunsPseudocode : Obligations.FftRunsPseudocode := by
  refine ⟨rfl, fun s => ⟨⟨bitReverse s.re, bitReverse s.im⟩,
    fun i => ⟨getElem?_bitReverse s.re i, getElem?_bitReverse s.im i⟩, ?_⟩⟩
  simp (disch := decide) only [List.foldl_cons, List.foldl_nil, foldl_stageButterflies]
  rw [exec_fft, fftBlock, fftStages_eq]
  rfl

/-! ### Real spectra that every butterfly treats exactly (corner cases) -/

/-- The spectrum with real parts `f` and imaginary parts 0. -/
def realSpectrum (f : Nat → Word) : Spectrum := ⟨tabulate 128 f, tabulate 128 fun _ => 0⟩

/-- A spectrum is real with parts `f` when its elements say so. -/
theorem eq_realSpectrum {x : Spectrum} {f : Nat → Word} (h : ∀ i (hi : i < 128), x.re[i] = f i ∧ x.im[i] = 0) :
    x = realSpectrum f :=
  spectrum_ext fun i hi => by
    obtain ⟨re, im⟩ := h i hi
    simp [Spectrum.cell, realSpectrum, hi, re, im]

theorem getElem_realSpectrum (f : Nat → Word) (i : Nat) (hi : i < 128) :
    (realSpectrum f).re[i] = f i ∧ (realSpectrum f).im[i] = 0 :=
  ⟨getElem_tabulate .., getElem_tabulate ..⟩

/-- The exact sum of two words, wrapped, is the sum of the words (R13); so is their difference. -/
theorem wrapS32_toInt_add (v w : Word) : wrapS32 (v.toInt + w.toInt) = v + w := by
  apply BitVec.eq_of_toInt_eq
  rw [wrapS32_toInt, BitVec.toInt_add]

theorem wrapS32_toInt_sub (v w : Word) : wrapS32 (v.toInt - w.toInt) = v - w := by
  apply BitVec.eq_of_toInt_eq
  rw [wrapS32_toInt, BitVec.toInt_sub]

/-- The butterfly takes the real parts `f` to `f'` without rounding: its twiddle is 1.0 or its twiddled operand 0. -/
def Butterfly.Carries (b : Butterfly) (f f' : Nat → Word) : Prop :=
  (b.k = 0 ∨ f b.q = 0) ∧ f' b.p = f b.p + f b.q ∧ f' b.q = f b.p - f b.q

/-- Both indices of a butterfly are indices of the arrays. -/
theorem butterflyAt_lt {t i : Nat} (ht : t < 7) (hi : i < 128) :
    (butterflyAt (t + 1) i).p < 128 ∧ (butterflyAt (t + 1) i).q < 128 := by
  have groups : 128 / 2 ^ (t + 1) * 2 ^ (t + 1) = 128 := Nat.div_mul_cancel (Nat.pow_dvd_pow 2 (by omega : t + 1 ≤ 7))
  have group : (i / 2 ^ (t + 1) + 1) * 2 ^ (t + 1) ≤ 128 / 2 ^ (t + 1) * 2 ^ (t + 1) :=
    Nat.mul_le_mul_right _ (group_lt ht hi)
  have place : i % 2 ^ t < 2 ^ t := Nat.mod_lt _ (Nat.two_pow_pos t)
  have double : 2 ^ (t + 1) = 2 ^ t * 2 := pow_succ 2 t
  rw [groups, Nat.add_one_mul] at group
  simp only [butterflyAt_succ, groupButterfly]
  omega

/-- In a real spectrum an exact product is real: it is the twiddled operand. -/
theorem product_realSpectrum {f : Nat → Word} {b : Butterfly} (hq : b.q < 128) (unrounded : b.k = 0 ∨ f b.q = 0) :
    productRe (realSpectrum f) b = (f b.q).toInt ∧ productIm (realSpectrum f) b = 0 := by
  obtain ⟨re, im⟩ := getElem_realSpectrum f b.q hq
  rcases unrounded with twiddle | operand
  · simpa [signedAt_eq _ hq, re, im] using product_of_twiddle_zero (realSpectrum f) twiddle
  · rw [operand]
    exact product_of_operand_zero (by simp [signedAt_eq _ hq, re, operand]) (by simp [signedAt_eq _ hq, im])

/-- A stage takes `f` to `f'` when each of its butterflies does. -/
theorem fftStage_realSpectrum {t : Nat} (ht : t < 7) {f f' : Nat → Word}
    (carries : ∀ g j, j < 2 ^ t → (groupButterfly t g j).Carries f f') :
    fftStage (t + 1) (realSpectrum f) = realSpectrum f' := by
  refine eq_realSpectrum fun i hi => ?_
  have touches := butterflyAt_touches t i
  obtain ⟨hp, hq⟩ := butterflyAt_lt ht hi
  obtain ⟨unrounded, at_p, at_q⟩ := carries (i / 2 ^ (t + 1)) (i % 2 ^ t) (Nat.mod_lt _ (Nat.two_pow_pos t))
  rw [← butterflyAt_succ] at unrounded at_p at_q
  obtain ⟨vr, vi⟩ := product_realSpectrum hq unrounded
  obtain ⟨ur, ui⟩ := getElem_realSpectrum f _ hp
  simp only [fftStage, getElem_tabulate, signedAt_eq _ hp, vr, vi, ur, ui, wrapS32_toInt_add, wrapS32_toInt_sub]
  refine ⟨?_, by simp [wrapS32]⟩
  split
  · next is_p => rw [← at_p, ← is_p]
  · next not_p => rw [← at_q, ← touches.resolve_left not_p]

/-- The seven stages take `F 0` to `F 7` when the butterflies of stage `t + 1` take `F t` to `F (t + 1)`. -/
theorem fftStages_realSpectrum {F : Nat → Nat → Word}
    (carries : ∀ t g j, j < 2 ^ t → (groupButterfly t g j).Carries (F t) (F (t + 1))) :
    fftStages (realSpectrum (F 0)) = realSpectrum (F 7) :=
  forUp_induction (P := fun t x => x = realSpectrum (F t)) rfl fun t _ ht before =>
    before ▸ fftStage_realSpectrum ht (carries t)

/-- What `t` stages make of an impulse: the first group is flat, the others are 0. -/
def impulseAfter (c : Word) (t i : Nat) : Word := if i < 2 ^ t then c else 0

/-- What `t` stages make of a constant block: each group's first element holds the group's sum, the others 0. -/
def constantAfter (c : Word) (t i : Nat) : Word := if 2 ^ t ∣ i then 2 ^ t * c else 0

theorem impulseAfter_of_lt {c : Word} {t i : Nat} (h : i < 2 ^ t) : impulseAfter c t i = c := if_pos h
theorem impulseAfter_of_le {c : Word} {t i : Nat} (h : 2 ^ t ≤ i) : impulseAfter c t i = 0 := if_neg (Nat.not_lt.mpr h)

theorem constantAfter_of_dvd {c : Word} {t i : Nat} (h : 2 ^ t ∣ i) : constantAfter c t i = 2 ^ t * c := if_pos h
theorem constantAfter_of_not_dvd {c : Word} {t i : Nat} (h : ¬ 2 ^ t ∣ i) : constantAfter c t i = 0 := if_neg h

/-- The upper half of every group is 0 before the stage, and of the lower halves only that of group 0 is not. -/
theorem carries_impulse (c : Word) (t g j : Nat) (hj : j < 2 ^ t) :
    (groupButterfly t g j).Carries (impulseAfter c t) (impulseAfter c (t + 1)) := by
  have double : 2 ^ (t + 1) = 2 ^ t * 2 := pow_succ 2 t
  simp only [Butterfly.Carries, groupButterfly]
  rw [impulseAfter_of_le (i := _ + 2 ^ t) (Nat.le_add_left ..), add_zero, sub_zero]
  refine ⟨.inr rfl, ?_⟩
  rcases Nat.eq_zero_or_pos g with rfl | pos
  · rw [zero_mul, zero_add]
    simp (disch := omega) only [impulseAfter_of_lt, and_self]
  · have beyond : 2 ^ (t + 1) ≤ g * 2 ^ (t + 1) := Nat.le_mul_of_pos_left _ pos
    simp (disch := omega) only [impulseAfter_of_le, and_self]

/-- At the first place of a half group the twiddle is 1.0 and both operands hold the same sum; at the others both are 0. -/
theorem carries_constant (c : Word) (t g j : Nat) (hj : j < 2 ^ t) :
    (groupButterfly t g j).Carries (constantAfter c t) (constantAfter c (t + 1)) := by
  have double : 2 ^ (t + 1) = 2 ^ t * 2 := pow_succ 2 t
  have half_dvd : 2 ^ t ∣ 2 ^ (t + 1) := ⟨2, double⟩
  have base_dvd : 2 ^ (t + 1) ∣ g * 2 ^ (t + 1) := ⟨g, mul_comm ..⟩
  simp only [Butterfly.Carries, groupButterfly]
  rcases Nat.eq_zero_or_pos j with rfl | pos
  · have q_dvd : 2 ^ t ∣ g * 2 ^ (t + 1) + 2 ^ t := (half_dvd.trans base_dvd).add dvd_rfl
    have q_not_dvd : ¬ 2 ^ (t + 1) ∣ g * 2 ^ (t + 1) + 2 ^ t := fun h =>
      Nat.not_dvd_of_pos_of_lt (Nat.two_pow_pos t) (by omega) ((Nat.dvd_add_right base_dvd).mp h)
    rw [add_zero, constantAfter_of_dvd q_dvd, constantAfter_of_dvd (half_dvd.trans base_dvd), constantAfter_of_dvd base_dvd,
      constantAfter_of_not_dvd q_not_dvd]
    exact ⟨.inl (zero_mul _), by rw [pow_succ, mul_assoc, two_mul, mul_add], (sub_self _).symm⟩
  · have p_not_dvd : ¬ 2 ^ t ∣ g * 2 ^ (t + 1) + j := fun h =>
      Nat.not_dvd_of_pos_of_lt pos hj ((Nat.dvd_add_right (half_dvd.trans base_dvd)).mp h)
    have q_not_dvd : ¬ 2 ^ t ∣ g * 2 ^ (t + 1) + j + 2 ^ t := fun h => p_not_dvd ((Nat.dvd_add_left dvd_rfl).mp h)
    rw [constantAfter_of_not_dvd p_not_dvd, constantAfter_of_not_dvd q_not_dvd,
      constantAfter_of_not_dvd (mt half_dvd.trans p_not_dvd), constantAfter_of_not_dvd (mt half_dvd.trans q_not_dvd)]
    exact ⟨.inr rfl, rfl, rfl⟩

/-- The transform of a real block, from what bit reversal leaves of it to the end of the seven stages. -/
theorem fftBlock_of_carries {re im : Vector Word 128} {F : Nat → Nat → Word} (im_zero : ∀ i : Fin 128, im[i] = 0)
    (start : ∀ k : Fin 128, re[bitrev7 k]'(bitrev7_involutive k).1 = F 0 k)
    (carries : ∀ t g j, j < 2 ^ t → (groupButterfly t g j).Carries (F t) (F (t + 1))) :
    fftBlock ⟨re, im⟩ = realSpectrum (F 7) := by
  rw [← fftStages_realSpectrum carries]
  refine congrArg fftStages (eq_realSpectrum fun k hk => ?_)
  rw [getElem_bitReverse _ _ hk, getElem_bitReverse _ _ hk]
  exact ⟨start ⟨k, hk⟩, im_zero ⟨_, (bitrev7_involutive ⟨k, hk⟩).1⟩⟩

/-- Index 0 is the one that bit reversal takes to 0. -/
theorem bitrev7_eq_zero_iff (k : Fin 128) : bitrev7 k = 0 ↔ k = 0 := by
  revert k
  decide +kernel

/-- Settles O36: both blocks go through the stages without a rounding, in the forms `impulseAfter` and `constantAfter`. -/
theorem fftOfImpulseAndConstant : Obligations.FftOfImpulseAndConstant := by
  intro s t im_zero transformed
  obtain rfl := Host.Outcome.next.inj (exec_fft s ▸ transformed)
  simp only [advance_re, advance_im]
  constructor
  · intro impulse
    have flat : fftBlock ⟨s.re, s.im⟩ = realSpectrum (impulseAfter s.re[0] 7) := by
      refine fftBlock_of_carries im_zero (fun k => ?_) (carries_impulse s.re[0])
      by_cases first : bitrev7 k = 0
      · obtain rfl := (bitrev7_eq_zero_iff k).mp first
        exact (impulseAfter_of_lt Nat.one_pos).symm
      · have later : 2 ^ 0 ≤ k.val := Nat.pos_of_ne_zero fun zero => first ((bitrev7_eq_zero_iff k).mpr (Fin.ext zero))
        exact (impulse ⟨_, (bitrev7_involutive k).1⟩ first).trans (impulseAfter_of_le later).symm
    intro k
    rw [flat]
    obtain ⟨re, im⟩ := getElem_realSpectrum (impulseAfter s.re[0] 7) k k.isLt
    exact ⟨re.trans (impulseAfter_of_lt k.isLt), im⟩
  · intro constant
    have line : fftBlock ⟨s.re, s.im⟩ = realSpectrum (constantAfter s.re[0] 7) := by
      refine fftBlock_of_carries im_zero (fun k => ?_) (carries_constant s.re[0])
      rw [constantAfter_of_dvd (one_dvd _), pow_zero, one_mul]
      exact constant ⟨_, (bitrev7_involutive k).1⟩
    rw [line]
    have bin (k : Fin 128) := getElem_realSpectrum (constantAfter s.re[0] 7) k k.isLt
    refine ⟨(bin 0).1.trans (constantAfter_of_dvd (dvd_zero _)), fun k other => (bin k).1.trans ?_, fun k => (bin k).2⟩
    exact constantAfter_of_not_dvd (Nat.not_dvd_of_pos_of_lt (Nat.pos_of_ne_zero other) k.isLt)

end Sys2Proof.Machine
end

section
/-! PROOFS. `MAG` (`42_fft.md` R114): the floor root, its bounds, and the block of magnitudes. -/

namespace Sys2Proof.Machine

/-- The magnitude is the library's root, of a sum of squares of natural numbers. -/
theorem magnitude_eq_sqrt (a b : Int) : magnitude a b = (a.natAbs * a.natAbs + b.natAbs * b.natAbs).sqrt := by
  rw [magnitude, isqrt_eq_sqrt, ← Int.natAbs_mul_self (a := a), ← Int.natAbs_mul_self (a := b), ← Nat.cast_add,
    Int.toNat_natCast]

/-- The floor of the root of a sum of squares lies between the larger of the two and the sum of both. -/
theorem sqrt_add_sq_bounds (a b : Nat) :
    a ≤ (a * a + b * b).sqrt ∧ b ≤ (a * a + b * b).sqrt ∧ (a * a + b * b).sqrt ≤ a + b := by
  refine ⟨Nat.le_sqrt.mpr (Nat.le_add_right ..), Nat.le_sqrt.mpr (Nat.le_add_left ..), ?_⟩
  have square_le : a * a + b * b ≤ (a + b) * (a + b) := by
    rw [Nat.mul_add, Nat.add_mul, Nat.add_mul]
    omega
  simpa [Nat.sqrt_eq] using Nat.sqrt_le_sqrt square_le

/-- The magnitude is the floor of the root of the exact sum of squares, between the larger part and the sum of both. -/
theorem magnitude_spec (a b : Int) :
    (magnitude a b : Int) * magnitude a b ≤ a * a + b * b ∧
    a * a + b * b < ((magnitude a b : Int) + 1) * (magnitude a b + 1) ∧
    |a| ≤ magnitude a b ∧ |b| ≤ magnitude a b ∧ (magnitude a b : Int) ≤ |a| + |b| := by
  rw [magnitude_eq_sqrt, ← Int.natAbs_mul_self (a := a), ← Int.natAbs_mul_self (a := b), Int.abs_eq_natAbs,
    Int.abs_eq_natAbs]
  norm_cast
  exact ⟨Nat.sqrt_le _, Nat.lt_succ_sqrt _, sqrt_add_sq_bounds ..⟩

/-- `wrap_s32` of a natural number is its residue (R13). -/
theorem wrapS32_natCast (n : Nat) : wrapS32 (n : Int) = BitVec.ofNat 32 n := by simp [wrapS32]

/-- What `MAG` leaves in `RE`. -/
def magnitudeBlock (re im : Vector Word 128) : Vector Word 128 :=
  tabulate 128 fun k => wrapS32 (magnitude (signedAt re k) (signedAt im k))

theorem exec_mag (s : State) : exec .mag s = .next (advance { s with re := magnitudeBlock s.re s.im }) := rfl

theorem getElem_magnitudeBlock (re im : Vector Word 128) (k : Nat) (h : k < 128) :
    (magnitudeBlock re im)[k] = BitVec.ofNat 32 (magnitude re[k].toInt im[k].toInt) := by
  rw [magnitudeBlock, getElem_tabulate, signedAt_eq _ h, signedAt_eq _ h, wrapS32_natCast]

/-- Settles O37, element by element. -/
theorem magTakesFloorRoot : Obligations.MagTakesFloorRoot := by
  refine ⟨rfl, fun s => ⟨magnitudeBlock s.re s.im, exec_mag s, fun k => ⟨magnitude s.re[k].toInt s.im[k].toInt, ?_⟩⟩⟩
  obtain ⟨square_le, lt_square, re_le, im_le, le_add⟩ := magnitude_spec s.re[k].toInt s.im[k].toInt
  exact ⟨square_le, lt_square, re_le, im_le, le_add, getElem_magnitudeBlock s.re s.im k k.isLt⟩

end Sys2Proof.Machine
end

section
/-! PROOFS. The three bands (`43_bands_energy.md` R120 to R122): the means of `BAND`, the root mean square of `NRG`, the two
cases of `NORM`, and how large an amplitude the three leave together. -/

namespace Sys2Proof.Machine

/-! ### `BAND` (R120) -/

/-- What `BAND` leaves in the three registers of its bank. -/
def bandMeans (re : Vector Word 128) : Vector Word 3 := Vector.ofFn fun b => wrapU32 (bandMean re b)

theorem exec_band (bank : Bank) (s : State) :
    exec (.band bank) s = .next (advance { s with band := s.band.set bank (bandMeans s.re) }) := rfl

theorem getElem_bandMeans (re : Vector Word 128) (b : Fin 3) : (bandMeans re)[b] = wrapU32 (bandMean re b) := by
  simp [bandMeans]

/-- The indices of `RE` that band `b` takes (R120). -/
def bandIndices (b : Fin 3) : Finset Nat := Finset.Ico (bandLow b) (bandLow b + bandWidth b)

theorem card_bandIndices (b : Fin 3) : (bandIndices b).card = bandWidth b := by simp [bandIndices]

theorem bandMean_eq (re : Vector Word 128) (b : Fin 3) :
    bandMean re b = (∑ k ∈ bandIndices b, signedAt re k) / bandWidth b := by
  rw [bandMean, sumUp_eq_sum, bandIndices, Finset.sum_Ico_eq_sum_range, Nat.add_sub_cancel_left]

/-- A triple of per-band values, written out. -/
theorem ofFn_bands {α : Type} (f : Fin 3 → α) : Vector.ofFn f = #v[f 0, f 1, f 2] := rfl

/-- Settles O39, band by band. -/
theorem bandTakesThreeMeans : Obligations.BandTakesThreeMeans := by
  refine ⟨rfl, rfl, fun bank s => ?_⟩
  rw [exec_band, bandMeans, ofFn_bands, bandMean_eq, bandMean_eq, bandMean_eq, Finset.range_eq_Ico]
  rfl

/-! ### `NRG` (R121) -/

theorem exec_nrg (bank : Bank) (s : State) :
    exec (.nrg bank) s = .next (advance { s with energy := s.energy.set bank (wrapU32 (rms s.re)) }) := rfl

theorem squareSum_eq (re : Vector Word 128) : squareSum re = ∑ k : Fin 128, re[k].toInt * re[k].toInt := by
  rw [squareSum, sumUp_eq_sum, Finset.sum_range]
  exact Finset.sum_congr rfl fun k _ => by rw [signedAt_eq re k.isLt, Fin.getElem_fin]

/-- The square of a signed word is at most that of `-2^31`. -/
theorem toInt_mul_self_le (w : Word) : w.toInt * w.toInt ≤ 2 ^ 62 := by
  have word_le : |w.toInt| ≤ 2 ^ 31 := abs_le.mpr ⟨BitVec.le_toInt _, BitVec.toInt_lt.le⟩
  calc w.toInt * w.toInt = |w.toInt| * |w.toInt| := (abs_mul_abs_self _).symm
    _ ≤ 2 ^ 31 * 2 ^ 31 := mul_self_le_mul_self (abs_nonneg _) word_le

theorem squareSum_bounds (re : Vector Word 128) : 0 ≤ squareSum re ∧ squareSum re ≤ 128 * 2 ^ 62 := by
  rw [squareSum_eq]
  refine ⟨Finset.sum_nonneg fun k _ => mul_self_nonneg _, ?_⟩
  calc ∑ k : Fin 128, re[k].toInt * re[k].toInt ≤ ∑ _k : Fin 128, 2 ^ 62 :=
      Finset.sum_le_sum fun k _ => toInt_mul_self_le re[k]
    _ = 128 * 2 ^ 62 := Fin.sum_const ..

/-- The energy is the floor of the root of the floor mean square. -/
theorem rms_spec (re : Vector Word 128) :
    (rms re : Int) * rms re ≤ squareSum re / 128 ∧ squareSum re / 128 < ((rms re : Int) + 1) * (rms re + 1) := by
  obtain ⟨nonneg, -⟩ := squareSum_bounds re
  obtain ⟨square_le, lt_square⟩ := isqrt_spec (squareSum re / 128).toNat
  have mean_eq : ((squareSum re / 128).toNat : Int) = squareSum re / 128 := Int.toNat_of_nonneg (by omega)
  rw [← mean_eq]
  exact ⟨mod_cast square_le, mod_cast lt_square⟩

/-- No square of a word exceeds `2^62`, so neither does their mean. -/
theorem rms_le (re : Vector Word 128) : rms re ≤ 2 ^ 31 := by
  obtain ⟨-, sum_le⟩ := squareSum_bounds re
  obtain ⟨square_le, -⟩ := rms_spec re
  have le_square : (rms re : Int) * rms re ≤ 2 ^ 31 * 2 ^ 31 := by omega
  exact Nat.mul_self_le_mul_self_iff.mp (mod_cast le_square)

theorem rms_eq_zero_iff (re : Vector Word 128) : rms re = 0 ↔ squareSum re < 128 := by
  obtain ⟨square_le, lt_square⟩ := rms_spec re
  constructor
  · intro zero
    rw [zero] at lt_square
    omega
  · intro small
    have square_lt : (rms re : Int) * rms re < 1 := by omega
    exact Nat.lt_one_iff.mp (Nat.mul_self_lt_mul_self_iff.mp (mod_cast square_lt))

/-- Settles O40: the root's two inequalities; it fits its register, so the word is 0 only when the root is. -/
theorem nrgTakesRootMeanSquare : Obligations.NrgTakesRootMeanSquare := by
  refine ⟨rfl, rfl, fun bank s => ⟨rms s.re, ?_⟩⟩
  obtain ⟨square_le, lt_square⟩ := rms_spec s.re
  have fits := rms_le s.re
  rw [← squareSum_eq]
  refine ⟨by rw [exec_nrg, wrapU32_natCast]; rfl, square_le, lt_square, fits, ?_⟩
  rw [← rms_eq_zero_iff, ← BitVec.toNat_inj, ← wrapU32_natCast, wrapU32_toNat_of_lt (by omega)]
  rfl

/-! ### `NORM` (R122) -/

/-- What `NORM` leaves in the three registers of its bank when the energy is not 0. -/
def normalisedBands (band : Vector Word 3) (energy : Word) : Vector Word 3 :=
  Vector.ofFn fun b => wrapU32 (normalised band[b].toNat b energy.toNat)

theorem getElem_normalisedBands (band : Vector Word 3) (energy : Word) (b : Fin 3) :
    (normalisedBands band energy)[b] = wrapU32 (normalised band[b].toNat b energy.toNat) := by
  simp [normalisedBands]

theorem exec_norm_of_energy_zero {bank : Bank} {s : State} (h : s.energy[bank] = 0) :
    exec (.norm bank) s = .next (advance s) := if_pos h

theorem exec_norm_of_energy_ne_zero {bank : Bank} {s : State} (h : s.energy[bank] ≠ 0) :
    exec (.norm bank) s =
      .next (advance { s with band := s.band.set bank (normalisedBands s.band[bank] s.energy[bank]) }) := if_neg h

/-- Settles O41, case by case. -/
theorem normScalesByGainOverEnergy : Obligations.NormScalesByGainOverEnergy := by
  refine ⟨rfl, rfl, fun bank s => ⟨exec_norm_of_energy_zero, fun energy_ne => ?_⟩⟩
  rw [exec_norm_of_energy_ne_zero energy_ne, normalisedBands, ofFn_bands]
  simp only [wrapU32_natCast, normalised_eq]
  rfl

/-! ### `BAND`, `NRG`, `NORM` of one bank (R209) -/

theorem execAll_singleton (i : Instr) (s : State) : execAll [i] s = exec i s := by
  unfold execAll
  cases exec i s <;> rfl

/-- A natural number never wraps to a larger one (R13). -/
theorem toNat_wrapU32_le {v : Int} (h : 0 ≤ v) : ((wrapU32 v).toNat : Int) ≤ v := by
  rw [← Int.toNat_of_nonneg h, wrapU32_natCast, BitVec.toNat_ofNat]
  exact mod_cast Nat.mod_le ..

/-- The narrowest band has 20 indices. -/
theorem bandWidth_ge : ∀ b : Fin 3, 20 ≤ bandWidth b := by decide

theorem bandIndices_subset : ∀ b : Fin 3, bandIndices b ⊆ Finset.range 128 := by decide

theorem signedAt_nonneg {re : Vector Word 128} (nonneg : ∀ k : Fin 128, 0 ≤ re[k].toInt) (i : Nat) : 0 ≤ signedAt re i := by
  by_cases h : i < 128
  · rw [signedAt_eq re h]
    exact nonneg ⟨i, h⟩
  · simp [signedAt, h]

theorem bandMean_nonneg {re : Vector Word 128} (nonneg : ∀ k : Fin 128, 0 ≤ re[k].toInt) (b : Fin 3) : 0 ≤ bandMean re b := by
  rw [bandMean_eq]
  exact Int.ediv_nonneg (Finset.sum_nonneg fun i _ => signedAt_nonneg nonneg i) (Int.natCast_nonneg _)

/-- The squares of one band are among those of the block. -/
theorem band_squares_le_squareSum (re : Vector Word 128) (b : Fin 3) :
    ∑ k ∈ bandIndices b, signedAt re k ^ 2 ≤ squareSum re := by
  rw [squareSum, sumUp_eq_sum]
  simp only [← sq]
  exact Finset.sum_le_sum_of_subset_of_nonneg (bandIndices_subset b) fun k _ _ => sq_nonneg _

/-- The mean of a band against the block's squares, by the Cauchy-Schwarz inequality. -/
theorem bandMean_sq_le {re : Vector Word 128} (nonneg : ∀ k : Fin 128, 0 ≤ re[k].toInt) (b : Fin 3) :
    20 * bandMean re b ^ 2 ≤ squareSum re := by
  have width_ge := bandWidth_ge b
  have mean_nonneg := bandMean_nonneg nonneg b
  have width_pos : (0 : Int) < bandWidth b := by omega
  have width_mul_mean_le : bandWidth b * bandMean re b ≤ ∑ k ∈ bandIndices b, signedAt re k := by
    rw [bandMean_eq]
    exact Int.mul_ediv_self_le width_pos.ne'
  have squares : (bandWidth b : Int) * (bandWidth b * bandMean re b ^ 2) ≤ bandWidth b * squareSum re :=
    calc (bandWidth b : Int) * (bandWidth b * bandMean re b ^ 2) = (bandWidth b * bandMean re b) ^ 2 := by ring
      _ ≤ (∑ k ∈ bandIndices b, signedAt re k) ^ 2 := by gcongr
      _ ≤ bandWidth b * ∑ k ∈ bandIndices b, signedAt re k ^ 2 := by
        rw [← card_bandIndices]
        exact sq_sum_le_card_mul_sum_sq
      _ ≤ bandWidth b * squareSum re :=
        mul_le_mul_of_nonneg_left (band_squares_le_squareSum re b) width_pos.le
  calc 20 * bandMean re b ^ 2 ≤ bandWidth b * bandMean re b ^ 2 :=
      mul_le_mul_of_nonneg_right (mod_cast width_ge) (sq_nonneg _)
    _ ≤ squareSum re := le_of_mul_le_mul_left squares width_pos

/-- A band mean is below three times the energy plus 1, since `128 / 20 < 3^2`. -/
theorem bandMean_lt {re : Vector Word 128} (nonneg : ∀ k : Fin 128, 0 ≤ re[k].toInt) (b : Fin 3) :
    bandMean re b < 3 * ((rms re : Int) + 1) := by
  have mean_sq_le := bandMean_sq_le nonneg b
  obtain ⟨-, lt_square⟩ := rms_spec re
  have root_pos : 0 < (rms re : Int) + 1 := by omega
  have square_pos := mul_pos root_pos root_pos
  refine lt_of_pow_lt_pow_left₀ 2 (by omega) ?_
  calc bandMean re b ^ 2 < 9 * (((rms re : Int) + 1) * (rms re + 1)) := by omega
    _ = (3 * ((rms re : Int) + 1)) ^ 2 := by ring

/-- The register `BAND` leaves is bounded as the mean is, whether or not the mean wrapped. -/
theorem getElem_bandMeans_lt {re : Vector Word 128} (nonneg : ∀ k : Fin 128, 0 ≤ re[k].toInt) (b : Fin 3) :
    (bandMeans re)[b].toNat < 3 * (rms re + 1) := by
  have word_le := toNat_wrapU32_le (bandMean_nonneg nonneg b)
  have mean_lt := bandMean_lt nonneg b
  rw [getElem_bandMeans]
  omega

/-- `3 * (E + 1)` is at most `6 * E`, and the largest gain is 150: `6 * 150 * 256 < 2^18`. -/
theorem normalised_lt {a e : Nat} (h : a < 3 * (e + 1)) (he : e ≠ 0) (b : Fin 3) : normalised a b e < 2 ^ 18 := by
  rw [normalised_eq, Nat.div_lt_iff_lt_mul (Nat.pos_of_ne_zero he)]
  split <;> omega

/-- What `NORM` leaves in its bank. -/
theorem norm_leaves {bank : Bank} {s t : State} (h : exec (.norm bank) s = .next t) :
    t.band[bank] = if s.energy[bank] = 0 then s.band[bank] else normalisedBands s.band[bank] s.energy[bank] := by
  split
  · next energy_zero =>
    obtain rfl := Host.Outcome.next.inj (exec_norm_of_energy_zero energy_zero ▸ h)
    rfl
  · next energy_ne =>
    obtain rfl := Host.Outcome.next.inj (exec_norm_of_energy_ne_zero energy_ne ▸ h)
    simp

/-- `NORM` leaves below `2^18` every amplitude that was below `3 * (E + 1)`, whether or not it scales. -/
theorem norm_lt {bank : Bank} {s t : State} {b : Fin 3} (h : exec (.norm bank) s = .next t)
    (bound : ((s.band[bank])[b]).toNat < 3 * (s.energy[bank].toNat + 1)) : ((t.band[bank])[b]).toNat < 2 ^ 18 := by
  rw [norm_leaves h]
  split
  · next energy_zero =>
    rw [energy_zero] at bound
    exact bound.trans (by decide)
  · next energy_ne =>
    have small := normalised_lt bound (BitVec.toNat_ne_iff_ne.mpr energy_ne) b
    rwa [getElem_normalisedBands, wrapU32_toNat_of_lt (small.trans (by decide))]

/-- What `NORM` reads of what `BAND` has left. -/
theorem band_leaves {bank : Bank} {s t : State} (h : exec (.band bank) s = .next t) :
    t.band[bank] = bandMeans s.re ∧ t.re = s.re := by
  obtain rfl := Host.Outcome.next.inj (exec_band bank s ▸ h)
  simp

/-- What `NORM` reads of what `NRG` has left. -/
theorem nrg_leaves {bank : Bank} {s t : State} (h : exec (.nrg bank) s = .next t) :
    t.energy[bank].toNat = rms s.re ∧ t.band = s.band := by
  obtain rfl := Host.Outcome.next.inj (exec_nrg bank s ▸ h)
  simp [wrapU32_toNat_of_lt ((rms_le s.re).trans_lt (by decide))]

/-- Settles O42: the first two leave amplitudes bounded by the energy, from the same `RE`. -/
theorem normalisedBelowTwoTo18 : Obligations.NormalisedBelowTwoTo18 := by
  intro bank s t nonneg executed b
  obtain ⟨u, banded⟩ : ∃ u, exec (.band bank) s = .next u := ⟨_, exec_band bank s⟩
  obtain ⟨v, measured⟩ : ∃ v, exec (.nrg bank) u = .next v := ⟨_, exec_nrg bank u⟩
  rw [execAll_cons banded, execAll_cons measured, execAll_singleton] at executed
  obtain ⟨means, re_kept⟩ := band_leaves banded
  obtain ⟨energy, band_kept⟩ := nrg_leaves measured
  refine norm_lt executed ?_
  rw [energy, band_kept, means, re_kept]
  exact getElem_bandMeans_lt nonneg b

end Sys2Proof.Machine
end

section
/-! PROOFS. The smoother and the thresholds (`44_smoother.md` R130 to R132): one average as a weighted mean, what one
`SMOOTH` leaves, a run of them over standing amplitudes, and the rounded multiples of the averages. -/

namespace Sys2Proof.Machine

/-! ### One average (R130) -/

/-- A weighted mean is at least the smaller of its two values. -/
theorem min_le_averaged (avg new c : Nat) : min avg new ≤ averaged avg new c := by
  rw [averaged, Nat.le_div_iff_mul_le c.succ_pos]
  calc min avg new * (c + 1) = min avg new * c + min avg new := Nat.mul_succ ..
    _ ≤ avg * c + new := by
      gcongr
      · exact min_le_left ..
      · exact min_le_right ..

/-- A weighted mean is at most the larger of its two values. -/
theorem averaged_le_max (avg new c : Nat) : averaged avg new c ≤ max avg new := by
  refine Nat.div_le_of_le_mul ?_
  calc avg * c + new ≤ max avg new * c + max avg new := by
        gcongr
        · exact le_max_left ..
        · exact le_max_right ..
    _ = (c + 1) * max avg new := by ring

/-- The first value is its own average, whatever the register held. -/
theorem averaged_zero (avg new : Nat) : averaged avg new 0 = new := by simp [averaged]

/-- A value averaged with itself stays. -/
theorem averaged_self (new c : Nat) : averaged new new c = new :=
  le_antisymm ((averaged_le_max ..).trans (max_self new).le) ((min_self new).ge.trans (min_le_averaged ..))

/-! ### `SMOOTH` (R130) -/

/-- What `SMOOTH` leaves in `AVG`. -/
def smoothedBands (avg band : Vector Word 3) (count : BitVec 6) : Vector Word 3 :=
  Vector.ofFn fun b => wrapU32 (averaged avg[b].toNat band[b].toNat count.toNat)

/-- What `SMOOTH` leaves in `COUNT`. -/
def nextCount (count : BitVec 6) : BitVec 6 := BitVec.ofNat 6 (min (count.toNat + 1) 50)

theorem exec_smooth (s : State) : exec .smooth s =
    .next (advance { s with avg := smoothedBands s.avg s.band[0] s.count, count := nextCount s.count }) := rfl

theorem getElem_smoothedBands (avg band : Vector Word 3) (count : BitVec 6) (b : Fin 3) :
    (smoothedBands avg band count)[b] = wrapU32 (averaged avg[b].toNat band[b].toNat count.toNat) := by
  simp [smoothedBands]

/-- The wrap changes no average: it lies between two words (R132 (d)). -/
theorem getElem_smoothedBands_toNat (avg band : Vector Word 3) (count : BitVec 6) (b : Fin 3) :
    ((smoothedBands avg band count)[b]).toNat = averaged avg[b].toNat band[b].toNat count.toNat := by
  rw [getElem_smoothedBands]
  exact wrapU32_toNat_of_lt ((averaged_le_max ..).trans_lt (max_lt avg[b].isLt band[b].isLt))

/-- The cap fits the six bits of `COUNT`. -/
theorem nextCount_toNat (count : BitVec 6) : (nextCount count).toNat = min (count.toNat + 1) 50 := by
  rw [nextCount, BitVec.toNat_ofNat]
  exact Nat.mod_eq_of_lt ((Nat.min_le_right _ 50).trans_lt (by decide))

/-- Settles O43: each average lies between the old one and the new amplitude, so it fits its register. -/
theorem smoothUpdatesAverages : Obligations.SmoothUpdatesAverages := by
  refine ⟨rfl, fun s => ⟨smoothedBands s.avg s.band[0] s.count, nextCount s.count, exec_smooth s,
    nextCount_toNat s.count, fun b => ?_⟩⟩
  rw [getElem_smoothedBands_toNat]
  exact ⟨rfl, min_le_averaged .., averaged_le_max ..⟩

/-! ### Standing amplitudes (R132) -/

/-- Averages become the amplitudes on the first turn, and those that are the amplitudes stay so. -/
theorem smoothedBands_eq_band {avg band : Vector Word 3} {count : BitVec 6} (h : count = 0 ∨ avg = band) :
    smoothedBands avg band count = band := by
  ext i hi : 1
  rw [← BitVec.toNat_inj]
  refine (getElem_smoothedBands_toNat avg band count ⟨i, hi⟩).trans ?_
  rcases h with rfl | rfl
  · exact averaged_zero ..
  · exact averaged_self ..

/-- One `SMOOTH` from count 0, or with the averages at the amplitudes, leaves the averages there. -/
theorem exec_smooth_settles {s : State} (h : s.count = 0 ∨ s.avg = s.band[0]) :
    ∃ t, exec .smooth s = .next t ∧ t.avg = t.band[0] ∧ t.band = s.band ∧ t.count.toNat = min (s.count.toNat + 1) 50 :=
  ⟨_, exec_smooth s, smoothedBands_eq_band h, rfl, nextCount_toNat s.count⟩

/-- Averages that are the amplitudes stand still; only the count moves on. -/
theorem execAll_smooth_settled (k : Nat) {s : State} (settled : s.avg = s.band[0]) (capped : s.count.toNat ≤ 50) :
    ∃ t, execAll (List.replicate k .smooth) s = .next t ∧ t.avg = s.band[0] ∧
      t.count.toNat = min (s.count.toNat + k) 50 := by
  induction k generalizing s with
  | zero => exact ⟨s, rfl, settled, (min_eq_left capped).symm⟩
  | succ k ih =>
    obtain ⟨u, smoothed, u_settled, band_kept, counted⟩ := exec_smooth_settles (.inr settled)
    obtain ⟨t, executed, t_avg, t_count⟩ := ih u_settled (counted ▸ Nat.min_le_right ..)
    refine ⟨t, (execAll_cons smoothed).trans executed, t_avg.trans (by rw [band_kept]), ?_⟩
    omega

/-- Settles O44: the first `SMOOTH` settles the averages and the others keep them. -/
theorem smoothOfConstantInput : Obligations.SmoothOfConstantInput := by
  intro k s count_zero
  have start : s.count.toNat = 0 := by rw [count_zero]; rfl
  cases k with
  | zero => exact ⟨s, rfl, start, fun h => absurd h (by decide)⟩
  | succ k =>
    obtain ⟨u, smoothed, settled, band_kept, counted⟩ := exec_smooth_settles (.inl count_zero)
    obtain ⟨t, executed, t_avg, t_count⟩ := execAll_smooth_settled k settled (counted ▸ Nat.min_le_right ..)
    refine ⟨t, (execAll_cons smoothed).trans executed, ?_, fun _ => t_avg.trans (by rw [band_kept])⟩
    omega

/-! ### Thresholds (R131) -/

/-- A threshold is a rounded product of two natural numbers. -/
theorem thr_nonneg (s : State) (b : Fin 3) : 0 ≤ thr s b := by
  rw [thr_eq]
  split <;> omega

/-- Settles O45: `thr_eq` at each band. -/
theorem thresholdFormula : Obligations.ThresholdFormula :=
  fun s => ⟨thr_eq s 0, thr_eq s 1, thr_eq s 2, thr_nonneg s⟩

end Sys2Proof.Machine
end

section
/-! PROOFS. What the render operations compute (`45_render.md` R143, R144, R146, R148, R150): tier, bucket and raw counts, the
brightness and the scaled colour, each with the bounds and corner cases its rule derives. -/

namespace Sys2Proof.Machine

/-! ### Tiers (R146) -/

/-- R146 counts the quarters of the threshold that four times the amplitude is strictly above. -/
theorem tiersAbove_eq_countP (a : Nat) (t : Int) :
    tiersAbove a t = [0, 4, 5, 6, 7, 8].countP fun q : Int => q * t < 4 * a :=
  List.countP_eq_length_filter.symm

/-- The six comparisons, one by one. -/
theorem tiersAbove_eq (a : Nat) (t : Int) : tiersAbove a t =
    (if 8 * t < 4 * (a : Int) then 1 else 0) + (if 7 * t < 4 * a then 1 else 0) + (if 6 * t < 4 * a then 1 else 0) +
      (if 5 * t < 4 * a then 1 else 0) + (if 4 * t < 4 * a then 1 else 0) + (if 0 < 4 * (a : Int) then 1 else 0) := by
  simp only [tiersAbove_eq_countP, List.countP_cons, List.countP_nil, decide_eq_true_eq, zero_mul, zero_add]

/-- A bar has six pixels (R147). -/
theorem tierCount_le (s : State) (bank : Bank) (b : Fin 3) : tierCount s bank b ≤ 6 := List.length_filter_le ..

/-- Amplitude 0 is above no boundary, since no threshold is negative. -/
theorem tierCount_of_amplitude_zero {s : State} {bank : Bank} {b : Fin 3} (h : bandAt s bank b = 0) :
    tierCount s bank b = 0 := by
  have threshold_nonneg := thr_nonneg s b
  rw [tierCount, h, tiersAbove_eq]
  simp (disch := omega) only [if_neg]

/-- Settles O46: each row of the table decides the six comparisons. -/
theorem tierCountTable : Obligations.TierCountTable := by
  intro s bank b A T n
  have count : n = tiersAbove ((s.band[bank])[b]).toNat T := rfl
  rw [tiersAbove_eq] at count
  refine ⟨fun amplitude_zero => tierCount_of_amplitude_zero (Int.natCast_eq_zero.mp amplitude_zero),
    fun threshold_zero above => ?_, fun threshold_pos => ⟨fun above upto => ?_, fun above upto => ?_, fun above upto => ?_,
    fun above upto => ?_, fun above upto => ?_, fun above => ?_⟩⟩
  all_goals
    rw [count]
    simp (disch := omega) only [if_pos, if_neg]

/-! ### Energy buckets (R148) -/

theorem bucketCount_le (e len : Nat) : bucketCount e len ≤ len := Nat.min_le_right ..

theorem bucketCount_mono {e e' : Nat} (h : e ≤ e') (len : Nat) : bucketCount e len ≤ bucketCount e' len :=
  min_le_min_right len (Nat.div_le_div_right h)

theorem bucketCount_of_full {e len : Nat} (h : 64000 * len ≤ e) : bucketCount e len = len := by
  rw [bucketCount_eq]
  omega

/-! ### Brightness (R143) -/

theorem brightness_eq (total c : Nat) : brightness total c = min total c * 255 / c := rfl

theorem brightness_zero (c : Nat) : brightness 0 c = 0 := by simp [brightness_eq]

theorem brightness_mono {t t' : Nat} (h : t ≤ t') (c : Nat) : brightness t c ≤ brightness t' c := by
  rw [brightness_eq, brightness_eq]
  gcongr

/-- The clamp comes first, so the quotient never passes 255. -/
theorem brightness_le (total c : Nat) : brightness total c ≤ 255 :=
  Nat.div_le_of_le_mul (Nat.mul_le_mul_right 255 (Nat.min_le_right ..))

/-- 255 is reached at the ceiling and not below it. -/
theorem brightness_eq_255_iff {c : Nat} (pos : 0 < c) (total : Nat) : brightness total c = 255 ↔ c ≤ total := by
  constructor
  · intro full
    have scaled : 255 * c ≤ min total c * 255 := (Nat.le_div_iff_mul_le pos).mp full.ge
    omega
  · intro reached
    rw [brightness_eq, min_eq_right reached, Nat.mul_div_cancel_left 255 pos]

/-- The brightness leaves 0 where 255 times the amplitude reaches the ceiling. -/
theorem one_le_brightness_iff {c : Nat} (pos : 0 < c) (total : Nat) : 1 ≤ brightness total c ↔ c ≤ total * 255 := by
  rw [brightness_eq, Nat.le_div_iff_mul_le pos]
  omega

theorem ceilValue_pos (ceil : Ceil) : 0 < ceilValue ceil := by cases ceil <;> decide

/-- Settles O55: the facts about `brightness` at the two ceilings. -/
theorem brightnessClampsAndScales : Obligations.BrightnessClampsAndScales := by
  intro s bank ceil C total
  have ceiling : ceilValue ceil = C := by cases ceil <;> rfl
  have bri_eq : bri s bank ceil = brightness total C := by rw [← ceiling]; rfl
  have pos : 0 < C := ceiling ▸ ceilValue_pos ceil
  rw [bri_eq]
  exact ⟨brightness_eq .., brightness_le .., fun silent => by rw [silent, brightness_zero],
    brightness_eq_255_iff pos total, one_le_brightness_iff pos total⟩

/-! ### Scaled colours (R141, R144) -/

/-- The channels of a pixel word packed by R51's layout. -/
theorem channelBits (red green blue : BitVec 8) :
    (red ++ green ++ blue).extractLsb' 16 8 = red ∧ (red ++ green ++ blue).extractLsb' 8 8 = green ∧
      (red ++ green ++ blue).extractLsb' 0 8 = blue := by
  simp only [BitVec.extractLsb'_append_eq_ite]
  simp

/-- Numbers of at most 8 bits are the channels of the pixel word made of them. -/
theorem channels_pixelOf {r g b : Nat} (hr : r < 256) (hg : g < 256) (hb : b < 256) :
    redOf (pixelOf r g b) = r ∧ greenOf (pixelOf r g b) = g ∧ blueOf (pixelOf r g b) = b := by
  obtain ⟨red, green, blue⟩ := channelBits (BitVec.ofNat 8 r) (BitVec.ofNat 8 g) (BitVec.ofNat 8 b)
  refine ⟨(congrArg BitVec.toNat red).trans ?_, (congrArg BitVec.toNat green).trans ?_,
    (congrArg BitVec.toNat blue).trans ?_⟩
  · exact Nat.mod_eq_of_lt hr
  · exact Nat.mod_eq_of_lt hg
  · exact Nat.mod_eq_of_lt hb

/-- A pixel word is its three channels. -/
theorem pixelOf_channels (c : Pixel) : pixelOf (redOf c) (greenOf c) (blueOf c) = c := by
  apply BitVec.eq_of_getLsbD_eq
  intro i hi
  simp only [pixelOf, redOf, greenOf, blueOf, BitVec.ofNat_toNat, BitVec.setWidth_eq, BitVec.getLsbD_append,
    BitVec.getLsbD_extractLsb']
  interval_cases i <;> simp

/-- A scaled channel still fits its 8 bits. -/
theorem scaled_lt (channel : BitVec 8) {v : Nat} (hv : v ≤ 255) : channel.toNat * v / 255 < 256 := by
  have scaled_le : channel.toNat * v ≤ 255 * 255 := Nat.mul_le_mul (Nat.le_of_lt_succ channel.isLt) hv
  omega

theorem scale_eq (c : Pixel) (v : Nat) :
    scale c v = pixelOf (redOf c * v / 255) (greenOf c * v / 255) (blueOf c * v / 255) := rfl

theorem channels_scale (c : Pixel) {v : Nat} (hv : v ≤ 255) :
    redOf (scale c v) = redOf c * v / 255 ∧ greenOf (scale c v) = greenOf c * v / 255 ∧
      blueOf (scale c v) = blueOf c * v / 255 :=
  channels_pixelOf (scaled_lt _ hv) (scaled_lt _ hv) (scaled_lt _ hv)

theorem scale_full (c : Pixel) : scale c 255 = c := by
  simp only [scale_eq, Nat.mul_div_cancel _ (Nat.succ_pos 254), pixelOf_channels]

theorem scale_zero (c : Pixel) : scale c 0 = 0 := by
  simp only [scale_eq, Nat.mul_zero, Nat.zero_div]
  rfl

/-- Settles O56: channel by channel, with the two ends. -/
theorem scaleActsOnChannels : Obligations.ScaleActsOnChannels := by
  intro c v hv
  have saturated : 255 * v / 255 = v := Nat.mul_div_cancel_left v (by decide)
  obtain ⟨red, green, blue⟩ := channels_scale c hv
  refine ⟨red, green, blue, scale_full c, scale_zero c, fun h => ?_, fun h => ?_, fun h => ?_⟩
  · rw [red, h, saturated]
  · rw [green, h, saturated]
  · rw [blue, h, saturated]

/-! ### Raw count (R150) -/

theorem rawDeviation_eq_sum (raw : Vector RawSample 128) :
    rawDeviation raw = ∑ i : Fin 128, |128 * (raw[i].toNat : Int) - rawSum raw| := by
  rw [rawDeviation, sumUp_eq_sum, Finset.sum_range]
  refine Finset.sum_congr rfl fun i _ => ?_
  rw [rawAt_eq raw i.isLt]
  rfl

theorem rawDeviation_nonneg (raw : Vector RawSample 128) : 0 ≤ rawDeviation raw := by
  rw [rawDeviation_eq_sum]
  exact Finset.sum_nonneg fun i _ => abs_nonneg _

theorem rawCount_eq (raw : Vector RawSample 128) :
    rawCount raw = min (rawDeviation raw / 64).toNat 128000 * 12 / 128000 := rfl

theorem rawCount_le (raw : Vector RawSample 128) : rawCount raw ≤ 12 := by
  rw [rawCount_eq]
  omega

/-- The exact sum of a constant block is 128 times each sample, so every deviation is 0. -/
theorem rawDeviation_of_constant {raw : Vector RawSample 128} (h : ∀ i j : Fin 128, raw[i] = raw[j]) :
    rawDeviation raw = 0 := by
  have total (i : Fin 128) : rawSum raw = 128 * raw[i].toNat := by
    rw [rawSum_eq_sum, Finset.sum_congr rfl fun j _ => congrArg (fun x : RawSample => (x.toNat : Int)) (h j i)]
    simp
  rw [rawDeviation_eq_sum]
  refine Finset.sum_eq_zero fun i _ => ?_
  rw [total i, sub_self, abs_zero]

theorem rawCount_of_constant {raw : Vector RawSample 128} (h : ∀ i j : Fin 128, raw[i] = raw[j]) : rawCount raw = 0 := by
  rw [rawCount_eq, rawDeviation_of_constant h]
  rfl

/-- Settles O50: the model's two sums are the rule's, and `D` is not negative. -/
theorem rawCountFormula : Obligations.RawCountFormula := by
  intro raw S D
  have deviation : rawDeviation raw = D := by rw [rawDeviation_eq_sum, rawSum_eq_sum]
  have deviation_nonneg := rawDeviation_nonneg raw
  refine ⟨?_, rawCount_le raw, rawCount_of_constant⟩
  rw [rawCount_eq, ← deviation]
  omega

end Sys2Proof.Machine
end

section
/-! PROOFS. The render operations (`45_render.md` R140, R145, R147 to R149, R151 to R153, R158): segments as intervals of pixel
indices, what each operation answers, and the properties of a whole frame (R159). -/

namespace Sys2Proof.Machine

/-! ### Segments (R140) -/

theorem mem_segIndices_up {start : BitVec 6} {n : Nat} {p : Int} :
    p ∈ segIndices .up start n ↔ start.toNat ≤ p ∧ p < start.toNat + n := by
  simp only [segIndices, List.mem_map, List.bind_eq_flatMap, List.pure_def, List.mem_flatMap, List.mem_singleton,
    List.mem_range]
  constructor
  · rintro ⟨_, ⟨i, hi, rfl⟩, rfl⟩
    omega
  · rintro ⟨lo, hi⟩
    exact ⟨p - start.toNat, ⟨(p - start.toNat).toNat, by omega, by omega⟩, by omega⟩

theorem mem_segIndices_down {start : BitVec 6} {n : Nat} {p : Int} :
    p ∈ segIndices .down start n ↔ start.toNat - n < p ∧ p ≤ start.toNat := by
  simp only [segIndices, List.mem_map, List.bind_eq_flatMap, List.pure_def, List.mem_flatMap, List.mem_singleton,
    List.mem_range]
  constructor
  · rintro ⟨_, ⟨i, hi, rfl⟩, rfl⟩
    omega
  · rintro ⟨lo, hi⟩
    exact ⟨start.toNat - p, ⟨(start.toNat - p).toNat, by omega, by omega⟩, by omega⟩

/-- The model's check of the fields is R140's check of every index: it suffices to look at the two ends. -/
theorem segFits_iff {dir : Dir} {start : BitVec 6} {n : Nat} (hn : n ≠ 0) :
    segFits dir start n = true ↔ ¬ ∃ p ∈ segIndices dir start n, p < 0 ∨ 59 < p := by
  cases dir with
  | up =>
    simp only [segFits_up, mem_segIndices_up]
    constructor
    · rintro fits ⟨p, inside, outside⟩
      omega
    · intro inside
      by_contra outside
      exact inside ⟨start.toNat + n - 1, by omega, by omega⟩
  | down =>
    simp only [segFits_down, mem_segIndices_down]
    constructor
    · rintro fits ⟨p, inside, outside⟩
      omega
    · intro inside
      by_contra outside
      rcases Nat.lt_or_ge start.toNat 60 with first_fits | first_outside
      · exact inside ⟨start.toNat - n + 1, by omega, by omega⟩
      · exact inside ⟨start.toNat, by omega, by omega⟩

/-- The conditions of R147 to R149 and R153 on the fields: the last pixel of a segment is beyond its end of the line. -/
theorem not_segFits {dir : Dir} {start : BitVec 6} {n : Nat}
    (h : dir = .up ∧ 60 < start.toNat + n ∨ dir = .down ∧ start.toNat + 1 < n) : ¬ segFits dir start n = true := by
  rcases h with ⟨rfl, beyond⟩ | ⟨rfl, beyond⟩
  · rw [segFits_up]
    omega
  · rw [segFits_down]
    omega

/-- In a segment that fits, the first pixels are the first indices: no subtraction is cut off at 0. -/
theorem exists_seg_iff {dir : Dir} {start : BitVec 6} {n m : Nat} (fits : segFits dir start m = true) (le : n ≤ m) (p : Nat) :
    (∃ i, i < n ∧ seg dir start i = p) ↔ (p : Int) ∈ segIndices dir start n := by
  cases dir with
  | up =>
    rw [mem_segIndices_up]
    constructor
    · rintro ⟨i, hi, rfl⟩
      simp only [seg]
      omega
    · rintro ⟨lo, hi⟩
      exact ⟨p - start.toNat, by omega, by simp only [seg]; omega⟩
  | down =>
    rw [segFits_down] at fits
    rw [mem_segIndices_down]
    constructor
    · rintro ⟨i, hi, rfl⟩
      simp only [seg]
      omega
    · rintro ⟨lo, hi⟩
      exact ⟨start.toNat - p, by omega, by simp only [seg]; omega⟩

/-- The first `n` pixels of a segment that fits take the colour, every other pixel keeps its own. -/
theorem getElem_paint_seg {dir : Dir} {start : BitVec 6} {n m : Nat} (fits : segFits dir start m = true) (le : n ≤ m)
    (pix : Vector Pixel 60) (c : Pixel) (p : Fin 60) :
    (paint pix (seg dir start) n c)[p] = if (p.val : Int) ∈ segIndices dir start n then c else pix[p] :=
  (getElem_paint pix (seg dir start) n c p p.isLt).trans (if_congr (exists_seg_iff fits le p) rfl rfl)

/-! ### What each operation answers: its checks in their order (R165, R186), then what it draws -/

section Answers

variable (bank : Bank) (dir : Dir) (ceil : Ceil) (color : BitVec 3) (band : Band) (len start : BitVec 6) (s : State)

theorem exec_clear : exec .clear s = .next (advance { s with pix := tabulate 60 fun _ => 0 }) := rfl

theorem exec_commit : exec .commit s = .next (advance (frameCommit s)) := rfl

theorem exec_tier : exec (.tier bank dir color band start) s =
    if segFits dir start 6 then
      .next (advance { s with
        pix := paint s.pix (seg dir start) (tierCount s bank (bandIx band)) (clutColor s color) })
    else .next (raise .pixelRange s) := rfl

theorem exec_ebkt : exec (.ebkt bank dir color len start) s =
    if len = 0 then .next (raise .illegalOp s)
    else if segFits dir start len.toNat then
      .next (advance { s with
        pix := paint s.pix (seg dir start) (bucketCount s.energy[bank].toNat len.toNat) (clutColor s color) })
    else .next (raise .pixelRange s) := rfl

theorem exec_wash : exec (.wash bank ceil color len start) s =
    if len = 0 then .next (raise .illegalOp s)
    else if segFits .up start len.toNat then
      .next (advance { s with
        pix := paint s.pix (seg .up start) len.toNat (scale (clutColor s color) (bri s bank ceil)) })
    else .next (raise .pixelRange s) := rfl

theorem exec_rawc : exec (.rawc color start) s =
    if segFits .up start 15 then
      .next (advance { s with
        pix := paint s.pix (fun k => start.toNat + columnIndex s k) (rawCount s.raw) (clutColor s color) })
    else .next (raise .pixelRange s) := rfl

/-- `SWEEP` with the state it draws from: the one after the time reading and the advance. -/
theorem exec_sweep : exec (.sweep bank ceil color len start) s =
    if len = 0 then .next (raise .illegalOp s)
    else if segFits .up start len.toNat then
      let t := sweepAdvance (timeReading s) bank len.toNat (consumeTime s)
      .next (advance { t with
        pix := paint t.pix (fun _ => start.toNat + t.sweepPos.toNat % len.toNat) 1
          (scale (clutColor s color) (bri s bank ceil)) })
    else .next (raise .pixelRange s) := rfl

end Answers

/-! ### `CLEAR` and `COMMIT` (R145, R158) -/

theorem tabulate_dark : tabulate 60 (fun _ => (0 : Pixel)) = Vector.replicate 60 0 := by
  ext i hi : 1
  rw [getElem_tabulate, Vector.getElem_replicate]

/-- Settles O53: the loop over the line leaves the dark frame. -/
theorem clearDarkensFrame : Obligations.ClearDarkensFrame := by
  refine ⟨rfl, fun s => ?_⟩
  rw [exec_clear, tabulate_dark]
  rfl

/-- A group of the line and what follows it (R178). -/
theorem take_append_drop_add {α : Type} (l : List α) (first len : Nat) :
    (l.drop first).take len ++ l.drop (first + len) = l.drop first := by
  rw [← List.drop_drop, List.take_append_drop]

/-- Each group ends where the next one begins, and the last ends with the line (R178). -/
theorem flatten_frameGroups (t : Topology) (f : Vector Pixel 60) : (frameGroups t f).flatten = f.toList := by
  have line_end : [] = f.toList.drop 60 := by simp
  cases t with
  | a =>
    simp only [frameGroups, Config.groups, List.map_cons, List.map_nil, List.flatten_cons, List.flatten_nil]
    rw [line_end, take_append_drop_add _ 44 16, take_append_drop_add _ 28 16, take_append_drop_add _ 16 12,
      take_append_drop_add _ 0 16, List.drop_zero]
  | b =>
    simp only [frameGroups, Config.groups, List.map_cons, List.map_nil, List.flatten_cons, List.flatten_nil]
    rw [line_end, take_append_drop_add _ 28 32, take_append_drop_add _ 0 28, List.drop_zero]

/-- Settles O54: the one output event, and the groups by `flatten_frameGroups`. -/
theorem commitEmitsFrame : Obligations.CommitEmitsFrame :=
  ⟨rfl, exec_commit, fun f => ⟨flatten_frameGroups .a f, flatten_frameGroups .b f, by simp [frameGroups, Config.groups],
    by simp [frameGroups, Config.groups]⟩⟩

/-! ### `TIER` and `EBKT` (R147, R148) -/

/-- Settles O47: the footprint's six pixels fit, and no more than these are lit. -/
theorem tierLightsPrefix : Obligations.TierLightsPrefix := by
  intro bank dir color band start
  refine ⟨by simp [encode, formatF_eq_or], fun s => ⟨fun inside => ?_, fun outside => ?_⟩⟩
  · have fits : segFits dir start 6 = true := (segFits_iff (by decide)).mpr inside
    exact ⟨_, (exec_tier ..).trans (if_pos fits), getElem_paint_seg fits (tierCount_le ..) s.pix _⟩
  · have misfits : ¬ segFits dir start 6 = true := not_segFits
      (outside.imp (fun ⟨up, beyond⟩ => ⟨up, by omega⟩) fun ⟨down, beyond⟩ => ⟨down, by omega⟩)
    exact (exec_tier ..).trans (if_neg misfits)

/-- Settles O48: the run of lit pixels never passes `len`. -/
theorem ebktLightsBuckets : Obligations.EbktLightsBuckets := by
  intro bank dir color len start
  refine ⟨by simp [encode, formatF_eq_or], fun s =>
    ⟨fun len_ne inside => ?_, fun len_ne outside => ?_, fun len_zero => ?_⟩⟩
  · have fits : segFits dir start len.toNat = true := (segFits_iff (len_toNat_ne_zero len_ne)).mpr inside
    exact ⟨_, (exec_ebkt ..).trans ((if_neg len_ne).trans (if_pos fits)),
      getElem_paint_seg fits (bucketCount_le ..) s.pix _⟩
  · exact (exec_ebkt ..).trans ((if_neg len_ne).trans (if_neg (not_segFits outside)))
  · exact (exec_ebkt ..).trans (if_pos len_zero)

/-! ### `WASH` (R149) -/

/-- Settles O49: the lit pixels are the whole segment, an interval. -/
theorem washFillsSegment : Obligations.WashFillsSegment := by
  intro bank ceil color len start
  refine ⟨by simp [encode, formatF_eq_or], fun s =>
    ⟨fun len_ne inside => ?_, fun len_ne outside => ?_, fun len_zero => ?_⟩⟩
  · have fits := segFits_up.mpr inside
    refine ⟨_, (exec_wash ..).trans ((if_neg len_ne).trans (if_pos fits)), fun p => ?_⟩
    refine (getElem_paint_seg fits le_rfl s.pix _ p).trans (if_congr ?_ rfl rfl)
    rw [mem_segIndices_up]
    omega
  · exact (exec_wash ..).trans ((if_neg len_ne).trans (if_neg (not_segFits (.inl ⟨rfl, outside⟩))))
  · exact (exec_wash ..).trans (if_pos len_zero)

/-! ### `RAWC` (R151, R152) -/

/-- The model's read of the column order is the order's entry. -/
theorem columnIndex_eq (s : State) (k : Fin 12) : columnIndex s k = (s.cfg.colIdx[k]).val := by
  simp [columnIndex]

/-- The painted columns are the first places of the order, since the count never passes the order's twelve. -/
theorem exists_column_iff (s : State) (start : BitVec 6) (p : Nat) :
    (∃ i, i < rawCount s.raw ∧ start.toNat + columnIndex s i = p) ↔
      ∃ k : Fin 12, k.val < rawCount s.raw ∧ start.toNat + (s.cfg.colIdx[k]).val = p := by
  constructor
  · rintro ⟨i, counted, place⟩
    refine ⟨⟨i, counted.trans_le (rawCount_le _)⟩, counted, ?_⟩
    rwa [← columnIndex_eq]
  · rintro ⟨k, counted, place⟩
    exact ⟨k, counted, by rwa [columnIndex_eq]⟩

/-- Settles O51: the painted places, and the one condition on `start`. -/
theorem rawcLightsColumns : Obligations.RawcLightsColumns := by
  refine ⟨rfl, fun color start => ⟨by simp [encode, formatF_eq_or], fun s => ⟨fun inside => ?_, fun outside => ?_⟩⟩⟩
  · have fits : segFits .up start 15 = true := segFits_up.mpr (by omega)
    refine ⟨_, (exec_rawc ..).trans (if_pos fits), fun p => ?_⟩
    rw [← exists_column_iff]
    exact ⟨fun lit => (getElem_paint _ _ _ _ p p.isLt).trans (if_pos lit),
      fun unlit => (getElem_paint _ _ _ _ p p.isLt).trans (if_neg unlit)⟩
  · exact (exec_rawc ..).trans (if_neg (not_segFits (.inl ⟨rfl, by omega⟩)))

/-! ### `SWEEP` (R153, R197) -/

/-- The elapsed time exceeds the delay of the energy, which is not 0. -/
theorem sweepAdvance_of_due {now : Word} {bank : Bank} {s : State} (len : Nat) (energy_ne : s.energy[bank] ≠ 0)
    (elapsed : 256000000 / s.energy[bank].toNat < (now - s.sweepT0).toNat) : sweepAdvance now bank len s =
      { s with sweepPos := BitVec.ofNat 6 ((s.sweepPos.toNat + 1) % len), sweepT0 := now } :=
  (if_neg energy_ne).trans (if_pos elapsed)

theorem sweepAdvance_of_not_due {now : Word} {bank : Bank} {s : State} (len : Nat)
    (h : ¬ (s.energy[bank] ≠ 0 ∧ 256000000 / s.energy[bank].toNat < (now - s.sweepT0).toNat)) :
    sweepAdvance now bank len s = s := by
  by_cases energy_zero : s.energy[bank] = 0
  · exact if_pos energy_zero
  · exact (if_neg energy_zero).trans (if_neg fun elapsed => h ⟨energy_zero, elapsed⟩)

/-- Settles O52: the two cases of the advance; the index is reduced below `len`, so its pixel is one of the segment's. -/
theorem sweepAdvancesAndLightsOne : Obligations.SweepAdvancesAndLightsOne := by
  intro bank ceil color len start
  refine ⟨by simp [encode, formatF_eq_or], fun s =>
    ⟨fun len_ne inside => ?_, fun len_ne outside => ?_, fun len_zero => ?_⟩⟩
  · intro now adv pos
    have reduced : pos.toNat % len.toNat < len.toNat := Nat.mod_lt _ (Nat.pos_of_ne_zero (len_toNat_ne_zero len_ne))
    refine ⟨(exec_sweep ..).trans ((if_neg len_ne).trans ((if_pos (segFits_up.mpr inside)).trans ?_)), by omega⟩
    by_cases due : adv
    · have pos_eq : pos = _ := if_pos due
      obtain ⟨energy_ne, elapsed⟩ := due
      rw [sweepAdvance_of_due (s := consumeTime s) len.toNat energy_ne elapsed, if_pos ⟨energy_ne, elapsed⟩, pos_eq]
      rfl
    · have pos_eq : pos = _ := if_neg due
      rw [sweepAdvance_of_not_due (s := consumeTime s) len.toNat due, if_neg due, pos_eq]
      rfl
  · exact (exec_sweep ..).trans ((if_neg len_ne).trans (if_neg (not_segFits (.inl ⟨rfl, outside⟩))))
  · exact (exec_sweep ..).trans (if_pos len_zero)

/-! ### Whole frames (R159) -/

/-- On a dark frame a drawing stays dark that lights no pixel, or only in the dark colour. -/
theorem paint_dark {n : Nat} {c : Pixel} (unlit : n = 0 ∨ c = 0) (place : Nat → Nat) :
    paint (Vector.replicate 60 0) place n c = Vector.replicate 60 0 := by
  rcases unlit with rfl | rfl
  · rfl
  · ext p hp : 1
    rw [getElem_paint _ _ _ _ p hp, Vector.getElem_replicate, ite_self]

/-- The results of an analysis that found nothing: amplitudes and energies 0 in both banks, `RAW` constant. -/
structure State.Silent (s : State) : Prop where
  band : s.band = Vector.replicate 2 (Vector.replicate 3 0)
  energy : s.energy = Vector.replicate 2 0
  raw : ∀ i j : Fin 128, s.raw[i] = s.raw[j]

namespace State.Silent

variable {s : State} (silent : s.Silent) (bank : Bank)

include silent

theorem bandAt_eq (b : Fin 3) : bandAt s bank b = 0 := by simp [bandAt, silent.band]

theorem tierCount_eq (b : Fin 3) : tierCount s bank b = 0 := tierCount_of_amplitude_zero (silent.bandAt_eq bank b)

theorem energy_eq : s.energy[bank] = 0 := by simp [silent.energy]

theorem bucketCount_eq (len : Nat) : bucketCount s.energy[bank].toNat len = 0 := by
  rw [silent.energy_eq]
  exact Nat.zero_min len

/-- No brightness, so the wash colour is dark. -/
theorem scale_eq (c : Pixel) (ceil : Ceil) : scale c (bri s bank ceil) = 0 := by
  have amplitude : totalAmp s bank = 0 := by simp [totalAmp, silent.bandAt_eq]
  rw [bri, amplitude, brightness_zero, scale_zero]

/-- The sweep stands still, since its delay is infinite (R197). -/
theorem sweepAdvance_eq (now : Word) (len : Nat) : sweepAdvance now bank len (consumeTime s) = consumeTime s :=
  sweepAdvance_of_not_due len fun ⟨energy_ne, _⟩ => energy_ne (silent.energy_eq bank)

/-- R159 (a): every operation with a footprint takes a fault, lights no pixel, or draws in the dark colour. -/
theorem draws_dark {i : Instr} {t : State} (drawing : footprint i ≠ []) (dark : s.pix = Vector.replicate 60 0)
    (h : exec i s = .next t) : t.pix = Vector.replicate 60 0 ∧ t.sweepPos = s.sweepPos := by
  have faulted {c : Cause} (e : Host.Outcome.next (raise c s) = (.next t : Result)) :
      t.pix = Vector.replicate 60 0 ∧ t.sweepPos = s.sweepPos := Host.Outcome.next.inj e ▸ ⟨dark, rfl⟩
  have drawn {u : State} {place : Nat → Nat} {n : Nat} {c : Pixel} (kept : u.pix = s.pix ∧ u.sweepPos = s.sweepPos)
      (unlit : n = 0 ∨ c = 0)
      (e : Host.Outcome.next (advance { u with pix := paint u.pix place n c }) = (.next t : Result)) :
      t.pix = Vector.replicate 60 0 ∧ t.sweepPos = s.sweepPos := by
    obtain ⟨pix_kept, pos_kept⟩ := kept
    rw [pix_kept, dark, paint_dark unlit] at e
    exact Host.Outcome.next.inj e ▸ ⟨rfl, pos_kept⟩
  cases i with
  | tier bank _ _ band _ =>
    exact next_of_ite (exec_tier .. ▸ h) (fun _ => drawn ⟨rfl, rfl⟩ (.inl (silent.tierCount_eq bank (bandIx band))))
      fun _ => faulted
  | ebkt bank _ _ len _ =>
    exact next_of_ite (exec_ebkt .. ▸ h) (fun _ => faulted) fun _ h =>
      next_of_ite h (fun _ => drawn ⟨rfl, rfl⟩ (.inl (silent.bucketCount_eq bank len.toNat))) fun _ => faulted
  | wash bank ceil =>
    exact next_of_ite (exec_wash .. ▸ h) (fun _ => faulted) fun _ h =>
      next_of_ite h (fun _ => drawn ⟨rfl, rfl⟩ (.inr (silent.scale_eq bank _ ceil))) fun _ => faulted
  | rawc =>
    exact next_of_ite (exec_rawc .. ▸ h) (fun _ => drawn ⟨rfl, rfl⟩ (.inl (rawCount_of_constant silent.raw)))
      fun _ => faulted
  | sweep bank ceil _ len _ =>
    refine next_of_ite (exec_sweep .. ▸ h) (fun _ => faulted) fun _ h => next_of_ite h (fun _ e => ?_) fun _ => faulted
    rw [silent.sweepAdvance_eq, silent.scale_eq] at e
    exact drawn ⟨consumeTime_pix s, consumeTime_sweepPos s⟩ (.inr rfl) e
  | nop | halt | endc | dispatch | ret | acq | reload | dcr | iir | win | fft | mag | band | nrg | norm | smooth | clear
  | commit => exact absurd rfl drawing

end State.Silent

theorem recognised_iff {m : ModeWord} : Config.Recognised m ↔ 1 ≤ m.toNat ∧ m.toNat ≤ 7 := Iff.rfl

/-- With no routine open, a mode outside 1 to 7 falls through `DISPATCH` (R163). -/
theorem exec_dispatch_of_unrecognised {s : State} (no_link : s.lrv = false) (h : ¬ Config.Recognised s.mode) :
    exec .dispatch s = .next (advance s) :=
  (if_neg (by simp [no_link])).trans (dif_neg h)

/-- R159 (b): the frame of an unrecognised mode is what `CLEAR` left. -/
theorem unrecognised_frame_dark {s t : State} (no_link : s.lrv = false) (h : ¬ Config.Recognised s.mode)
    (executed : execAll [.clear, .dispatch, .commit] s = .next t) :
    t.frames = s.frames ++ [Vector.replicate 60 0] := by
  have fell_through : exec .dispatch (advance { s with pix := tabulate 60 fun _ => 0 }) = .next _ :=
    exec_dispatch_of_unrecognised no_link h
  rw [execAll_cons (exec_clear s), execAll_cons fell_through, execAll_singleton, exec_commit, tabulate_dark] at executed
  obtain rfl := Host.Outcome.next.inj executed
  rfl

/-- Settles O57, clause by clause: the dark drawings, the frame that nothing is drawn in, the two monotone counts. -/
theorem renderPropertiesOfDoc : Obligations.RenderPropertiesOfDoc := by
  refine ⟨fun i s t drawing dark band energy raw h => State.Silent.draws_dark ⟨band, energy, raw⟩ drawing dark h,
    fun s t no_link unrecognised executed => ?_,
    fun e e' len le => ⟨bucketCount_mono le len, bucketCount_le e len, bucketCount_of_full⟩,
    fun t t' ceil le => ⟨brightness_mono le _, brightness_zero _, (brightness_eq_255_iff (ceilValue_pos ceil) t).mpr⟩⟩
  have outside : ¬ Config.Recognised s.mode := by
    rw [recognised_iff]
    omega
  exact unrecognised_frame_dark no_link outside executed

end Sys2Proof.Machine
end

section
/-! PROOFS. The control operations (`46_control.md` R160 to R164) and the step that runs one (R165). -/

namespace Sys2Proof.Machine

/-- Settles O7: the decoded operation runs as it stands, and a stopped sequencer answers itself. -/
theorem stepRunsDecodedOperation : Obligations.StepRunsDecodedOperation :=
  ⟨fun _ _ running decoded _ => step_of_instr running decoded, fun _ => step_of_stopped⟩

/-! ### What each control operation answers -/

theorem exec_nop (s : State) : exec .nop s = .next (advance s) := rfl

theorem exec_halt (s : State) : exec .halt s = .next { s with run := .halted } := rfl

theorem exec_endc (s : State) : exec .endc s = .next { s with pc := 0 } := rfl

theorem exec_dispatch_of_link {s : State} (link : s.lrv = true) : exec .dispatch s = .next (raise .link s) :=
  if_pos link

/-- A recognised mode has its entry in `VEC[1..7]` (R177). -/
theorem vecIndex_lt {m : ModeWord} (h : Config.Recognised m) : m.toNat - 1 < 7 := by
  rw [recognised_iff] at h
  omega

theorem exec_dispatch_of_recognised {s : State} (no_link : s.lrv = false) (h : Config.Recognised s.mode) :
    exec .dispatch s = .next { s with
      lr := s.pc + 1, lrv := true, pc := s.cfg.vec[s.mode.toNat - 1]'(vecIndex_lt h) } :=
  (if_neg (by simp [no_link])).trans (dif_pos h)

theorem exec_ret_of_link {s : State} (link : s.lrv = true) : exec .ret s = .next { s with pc := s.lr, lrv := false } :=
  if_pos link

theorem exec_ret_of_no_link {s : State} (no_link : s.lrv = false) : exec .ret s = .next (raise .link s) :=
  if_neg (by simp [no_link])

/-! ### The statements -/

/-- Settles O21: the word by evaluation, the effect by `exec_nop`. -/
theorem nopOnlyAdvances : Obligations.NopOnlyAdvances := ⟨rfl, exec_nop⟩

/-- Settles O23: the word by evaluation, the effect by `exec_endc`. -/
theorem endcGoesToTop : Obligations.EndcGoesToTop := ⟨rfl, exec_endc⟩

/-- Settles O24: the three cases by the link and by whether the mode is recognised. -/
theorem dispatchCallsModeRoutine : Obligations.DispatchCallsModeRoutine := by
  refine ⟨rfl, fun s => ⟨exec_dispatch_of_link, exec_dispatch_of_recognised, fun no_link outside => ?_⟩⟩
  have unrecognised : ¬ Config.Recognised s.mode := by
    rw [recognised_iff]
    omega
  exact exec_dispatch_of_unrecognised no_link unrecognised

/-- Settles O25: the two cases by the link. -/
theorem retReturnsThroughLink : Obligations.RetReturnsThroughLink :=
  ⟨rfl, fun _ => ⟨exec_ret_of_link, exec_ret_of_no_link⟩⟩

/-- A host write reaches `MODE` only (R33). -/
@[simp] theorem hostWrite_run (addr : WindowAddr) (v : Word) (s : State) : (hostWrite addr v s).run = s.run := by
  unfold hostWrite
  split <;> rfl

/-- R161: of all events only reset leaves `HALTED`; a step leaves the stopped state as it is. -/
theorem event_run_of_halted {e : Event} {s t : State} (halted : s.run = .halted) (h : onEvent e s = .next t) :
    t.run = .halted ↔ e ≠ .resets := by
  cases e with
  | stepCore =>
    have stands_still : step s = .next s := step_of_stopped (by simp [halted])
    obtain rfl := Host.Outcome.next.inj (stands_still.symm.trans h)
    simp [halted]
  | hostWrites addr v =>
    obtain rfl := Host.Outcome.next.inj h
    simp [halted]
  | hostReads | sampleReady | timeReady =>
    obtain rfl := Host.Outcome.next.inj h
    simp [halted]
  | resets =>
    obtain rfl := Host.Outcome.next.inj h
    simp [resetEvent, State.resetOf]

/-- Settles O22: `HALT` leaves a stopped sequencer, and each event from there is that of `event_run_of_halted`; `MODE` is
still written, as from every state (`hostWritesOnlyMode`). -/
theorem haltStopsUntilReset : Obligations.HaltStopsUntilReset := by
  refine ⟨rfl, fun s => ⟨exec_halt s, fun t h => ?_⟩⟩
  obtain rfl := Host.Outcome.next.inj ((exec_halt s).symm.trans h)
  refine ⟨step_of_stopped (by simp), fun v => ?_, fun e u => event_run_of_halted rfl⟩
  obtain ⟨mode_written, -⟩ := hostWritesOnlyMode { s with run := .halted } 0 v
  exact mode_written

/-- Settles O4: each word is the encoding of its operation, and the round trip decodes it. -/
theorem sampleWordsDecode : Obligations.SampleWordsDecode :=
  ⟨decodeEncodeRoundTrip .acq rfl, decodeEncodeRoundTrip .dispatch rfl, decodeEncodeRoundTrip (.band 1) rfl,
    decodeEncodeRoundTrip .smooth rfl, decodeEncodeRoundTrip (.tier 0 .up 3 .treble 12) rfl,
    decodeEncodeRoundTrip (.tier 1 .down 2 .mid 53) rfl, decodeEncodeRoundTrip (.ebkt 0 .up 2 16 0) rfl,
    decodeEncodeRoundTrip (.wash 0 .c1500 7 60 0) rfl, decodeEncodeRoundTrip (.rawc 1 28) rfl,
    decodeEncodeRoundTrip (.sweep 0 .c600 7 12 16) rfl, decodeEncodeRoundTrip .commit rfl⟩

end Sys2Proof.Machine
end

section
/-! PROOFS. The default program (`46_control.md` R175 to R177): which operation each of its words is, that its control stays
on the path of Safety.lean, and one cycle from the top. -/

namespace Sys2Proof.Machine

/-! ### Operations that pass control to the next word -/

/-- The operations that end with `pc <- PC + 1` in every state: no jump, no stop, and the check of the fields met (R186). -/
def straight : Instr → Bool
  | .halt | .endc | .dispatch | .ret => false
  | .tier _ dir _ _ start => segFits dir start 6
  | .ebkt _ dir _ len start => len ≠ 0 && segFits dir start len.toNat
  | .wash _ _ _ len start | .sweep _ _ _ len start => len ≠ 0 && segFits .up start len.toNat
  | .rawc _ start => segFits .up start 15
  | .nop | .acq | .reload | .dcr | .iir | .win | .fft | .mag | .band _ | .nrg _ | .norm _ | .smooth | .clear
  | .commit => true

/-- `t` stands one word further on the same path: `LR`, `LRV` and `RUN` as in `s`. -/
structure PassesOn (s t : State) : Prop where
  pc : t.pc = s.pc + 1
  lr : t.lr = s.lr
  lrv : t.lrv = s.lrv
  run : t.run = s.run

/-- An operation with its checks met passes on: `SWEEP`'s advance and `NORM`'s guard leave the control registers alone. -/
theorem exec_straight {i : Instr} (h : straight i = true) (s : State) : ∃ t, exec i s = .next t ∧ PassesOn s t := by
  cases i with
  | halt | endc | dispatch | ret => exact absurd h (by decide)
  | nop | acq | reload | dcr | iir | win | fft | mag | band | nrg | smooth | clear | commit =>
    exact ⟨_, rfl, rfl, rfl, rfl, rfl⟩
  | norm bank =>
    by_cases energy : s.energy[bank] = 0
    · exact ⟨_, exec_norm_of_energy_zero energy, rfl, rfl, rfl, rfl⟩
    · exact ⟨_, exec_norm_of_energy_ne_zero energy, rfl, rfl, rfl, rfl⟩
  | tier => exact ⟨_, (exec_tier ..).trans (if_pos h), rfl, rfl, rfl, rfl⟩
  | rawc => exact ⟨_, (exec_rawc ..).trans (if_pos h), rfl, rfl, rfl, rfl⟩
  | ebkt bank dir color len start =>
    obtain ⟨len_ne, fits⟩ : len ≠ 0 ∧ segFits dir start len.toNat = true := by simpa [straight] using h
    exact ⟨_, (exec_ebkt ..).trans ((if_neg len_ne).trans (if_pos fits)), rfl, rfl, rfl, rfl⟩
  | wash bank ceil color len start =>
    obtain ⟨len_ne, fits⟩ : len ≠ 0 ∧ segFits .up start len.toNat = true := by simpa [straight] using h
    exact ⟨_, (exec_wash ..).trans ((if_neg len_ne).trans (if_pos fits)), rfl, rfl, rfl, rfl⟩
  | sweep bank ceil color len start =>
    obtain ⟨len_ne, fits⟩ : len ≠ 0 ∧ segFits .up start len.toNat = true := by simpa [straight] using h
    obtain ⟨_, _, -, advanced⟩ := sweepAdvance_writes (timeReading s) bank len_ne (consumeTime s)
    refine ⟨_, (exec_sweep ..).trans ((if_neg len_ne).trans (if_pos fits)), ?_⟩
    rw [advanced]
    exact ⟨rfl, rfl, rfl, rfl⟩

/-! ### The words of the default program (R176, R177) -/

/-- The operation at an address of the default program, if its word is one. -/
def defaultInstr (pc : ProgAddr) : Option Instr :=
  match decode (Memory.unlisted pc.toNat) with
  | .instr i => some i
  | .illegal _ => none

theorem decode_of_defaultInstr {pc : ProgAddr} {i : Instr} (h : defaultInstr pc = some i) :
    decode (Memory.unlisted pc.toNat) = .instr i := by
  unfold defaultInstr at h
  split at h
  · rename_i decoded
    rw [decoded, Option.some.inj h]
  · cases h

/-- With no word configured the fetch reads the default program. -/
theorem step_of_defaultInstr {s : State} {i : Instr} (program : s.HasDefaultProgram) (running : s.run = .running)
    (h : defaultInstr s.pc = some i) : step s = exec i s := by
  obtain ⟨prog_default, -⟩ := program
  have fetched : fetch s = Memory.unlisted s.pc.toNat := by rw [fetch, prog_default]; rfl
  exact step_of_instr running (by rw [fetched, decode_of_defaultInstr h])

theorem State.HasDefaultProgram.of_cfg_eq {s t : State} (program : s.HasDefaultProgram) (h : t.cfg = s.cfg) :
    t.HasDefaultProgram := by
  rwa [State.HasDefaultProgram, h]

/-- A word of the main cycle passes on inside it, is the `DISPATCH` at 0x0B, or returns to the top. -/
theorem mainCycle_word : ∀ pc : ProgAddr, inMainCycle pc = true → ∃ i ∈ defaultInstr pc,
    (straight i = true ∧ inMainCycle (pc + 1) = true) ∨ (i = .dispatch ∧ pc = 0x0B) ∨ i = .endc := by
  decide +kernel

/-- A word of a mode routine passes on inside it or returns. -/
theorem routine_word : ∀ pc : ProgAddr, inRoutine pc = true → ∃ i ∈ defaultInstr pc,
    (straight i = true ∧ inRoutine (pc + 1) = true) ∨ i = .ret := by
  decide +kernel

theorem inRoutine_defaultVec : ∀ m : Fin 7, inRoutine defaultVec[m] = true := by decide

/-! ### The path (R175) -/

/-- A step from the main cycle: on to the next word, into a routine, past the `DISPATCH`, or back to the top. -/
theorem mainCycle_step {s t : State} (program : s.HasDefaultProgram) (running : s.run = .running)
    (main : inMainCycle s.pc = true) (no_link : s.lrv = false) (h : step s = .next t) : t.OnDefaultPath := by
  have program' := program.of_cfg_eq (step_keeps_mode_cfg h).2
  obtain ⟨i, word, kind⟩ := mainCycle_word s.pc main
  rw [step_of_defaultInstr program running word] at h
  rcases kind with ⟨passes, main'⟩ | ⟨rfl, at_dispatch⟩ | rfl
  · obtain ⟨u, executed, on⟩ := exec_straight passes s
    obtain rfl := Host.Outcome.next.inj (executed.symm.trans h)
    exact ⟨program', on.run.trans running, .inl ⟨by rwa [on.pc], on.lrv.trans no_link⟩⟩
  · by_cases mode : Config.Recognised s.mode
    · obtain rfl := Host.Outcome.next.inj ((exec_dispatch_of_recognised no_link mode).symm.trans h)
      refine ⟨program', running, .inr ⟨?_, rfl, by simp [at_dispatch]⟩⟩
      obtain ⟨-, vec_default⟩ := program
      simp only [vec_default]
      exact inRoutine_defaultVec ⟨s.mode.toNat - 1, vecIndex_lt mode⟩
    · obtain rfl := Host.Outcome.next.inj ((exec_dispatch_of_unrecognised no_link mode).symm.trans h)
      refine ⟨program', running, .inl ⟨?_, no_link⟩⟩
      rw [advance_pc, at_dispatch]
      decide
  · obtain rfl := Host.Outcome.next.inj ((exec_endc s).symm.trans h)
    exact ⟨program', running, .inl ⟨rfl, no_link⟩⟩

/-- A step from a routine: on to the next word, or through the link to `COMMIT`. -/
theorem routine_step {s t : State} (program : s.HasDefaultProgram) (running : s.run = .running)
    (routine : inRoutine s.pc = true) (link : s.lrv = true) (to_commit : s.lr = 0x0C) (h : step s = .next t) :
    t.OnDefaultPath := by
  have program' := program.of_cfg_eq (step_keeps_mode_cfg h).2
  obtain ⟨i, word, kind⟩ := routine_word s.pc routine
  rw [step_of_defaultInstr program running word] at h
  rcases kind with ⟨passes, routine'⟩ | rfl
  · obtain ⟨u, executed, on⟩ := exec_straight passes s
    obtain rfl := Host.Outcome.next.inj (executed.symm.trans h)
    exact ⟨program', on.run.trans running, .inr ⟨by rwa [on.pc], on.lrv.trans link, on.lr.trans to_commit⟩⟩
  · obtain rfl := Host.Outcome.next.inj ((exec_ret_of_link link).symm.trans h)
    refine ⟨program', running, .inl ⟨?_, rfl⟩⟩
    simp only [to_commit]
    decide

/-- A host write reaches `MODE` at most, which the path does not name. -/
theorem hostWrite_onDefaultPath (addr : WindowAddr) (v : Word) {s : State} (path : s.OnDefaultPath) :
    (hostWrite addr v s).OnDefaultPath := by
  by_cases h : addr = 0
  · subst h
    exact path
  · rwa [hostWrite_of_ne_zero h]

/-- Reset puts a machine with the default program at the top (R203). -/
theorem resetEvent_onDefaultPath {s : State} (program : s.HasDefaultProgram) : (resetEvent s).OnDefaultPath :=
  ⟨program.of_cfg_eq rfl, rfl, .inl ⟨rfl, rfl⟩⟩

/-- Settles O59: a step by the part of the path it starts in, reset by `resetEvent_onDefaultPath`; a reading that arrives
only lengthens a port's queue, and a host read changes nothing. -/
theorem defaultProgramNeverFaults : Obligations.DefaultProgramNeverFaults := by
  refine ⟨⟨⟨rfl, rfl⟩, rfl, .inl ⟨rfl, rfl⟩⟩, fun e s t path h => ?_⟩
  cases e with
  | stepCore =>
    obtain ⟨program, running, place⟩ := path
    rcases place with ⟨main, no_link⟩ | ⟨routine, link, to_commit⟩
    · exact mainCycle_step program running main no_link h
    · exact routine_step program running routine link to_commit h
  | resets =>
    obtain ⟨program, -⟩ := path
    exact Host.Outcome.next.inj h ▸ resetEvent_onDefaultPath program
  | hostWrites addr v => exact Host.Outcome.next.inj h ▸ hostWrite_onDefaultPath addr v path
  | hostReads | sampleReady | timeReady =>
    obtain rfl := Host.Outcome.next.inj h
    exact path

end Sys2Proof.Machine
end

section
/-! PROOFS. One cycle of the default program (`46_control.md` R175): the operations it runs, and what they draw, emit and
count. -/

namespace Sys2Proof.Machine

/-! ### What a run of operations draws, emits and counts -/

/-- `SWEEP`, the operation that reads the time base (R193). -/
@[simp] def isSweep : Instr → Bool
  | .sweep .. => true
  | _ => false

/-- The count after `n` executions of `SMOOTH` (R130). -/
def countAfter (n c : Nat) : Nat := (fun c => min (c + 1) 50)^[n] c

@[simp] theorem countAfter_zero (c : Nat) : countAfter 0 c = c := rfl

/-- From `s` to `t` the operations `ops` were completed one after the other: `t` has `RUN`, `MODE` and the configuration of
`s`, 128 more sample readings consumed for each `ACQ`, one time reading for each `SWEEP`, one more frame for each `COMMIT`,
and the count moved by each `SMOOTH` (R90, R130, R158, R193). -/
structure Tallies (ops : List Instr) (s t : State) : Prop where
  run : t.run = s.run
  mode : t.mode = s.mode
  cfg : t.cfg = s.cfg
  samples : t.samplesTaken = s.samplesTaken + 128 * ops.count .acq
  times : t.timesTaken = s.timesTaken + ops.countP isSweep
  emitted : s.frames <+: t.frames
  frames : t.frames.length = s.frames.length + ops.count .commit
  count : t.count.toNat = countAfter (ops.count .smooth) s.count.toNat

theorem Tallies.refl (s : State) : Tallies [] s s :=
  ⟨rfl, rfl, rfl, rfl, rfl, ⟨[], List.append_nil _⟩, rfl, rfl⟩

theorem Tallies.trans {ops ops' : List Instr} {s t u : State} (h : Tallies ops s t) (h' : Tallies ops' t u) :
    Tallies (ops ++ ops') s u where
  run := h'.run.trans h.run
  mode := h'.mode.trans h.mode
  cfg := h'.cfg.trans h.cfg
  samples := by rw [h'.samples, h.samples, List.count_append]; omega
  times := by rw [h'.times, h.times, List.countP_append]; omega
  emitted := h.emitted.trans h'.emitted
  frames := by rw [h'.frames, h.frames, List.count_append]; omega
  count := by
    rw [h'.count, h.count, List.count_append, Nat.add_comm]
    exact (Function.iterate_add_apply ..).symm

/-- An operation that leaves the sequencer running has completed, and tallies by what its rule names. -/
theorem exec_tallies {i : Instr} {s t : State} (h : exec i s = .next t) (running : t.run = .running) : Tallies [i] s t := by
  rcases exec_cases h with ⟨c, -, rfl⟩ | done
  · cases running
  · cases i with
    | halt => subst done; cases running
    | nop | endc | ret | commit => subst done; constructor <;> simp
    | dispatch => rcases done with rfl | ⟨_, rfl⟩ <;> constructor <;> simp
    | acq => obtain ⟨_, _, _, rfl⟩ := done; constructor <;> simp
    | reload | fft => obtain ⟨_, _, rfl⟩ := done; constructor <;> simp
    | dcr | iir | win | mag | band | norm | nrg | clear | tier | rawc =>
      obtain ⟨_, rfl⟩ := done
      constructor <;> simp
    | ebkt | wash => obtain ⟨-, _, rfl⟩ := done; constructor <;> simp
    | sweep => obtain ⟨-, _, _, _, -, rfl⟩ := done; constructor <;> simp
    | smooth =>
      obtain rfl := Host.Outcome.next.inj ((exec_smooth s).symm.trans h)
      exact ⟨rfl, rfl, rfl, rfl, rfl, ⟨[], List.append_nil _⟩, rfl, nextCount_toNat s.count⟩

/-! ### Runs of the default program -/

/-- The next steps execute `ops`, one after the other, and lead from `s` to `t`. -/
structure Runs (ops : List Instr) (s t : State) : Prop where
  steps : stepTimes ops.length s = .next t
  tallies : Tallies ops s t

/-- Steps add up: `m` of them, then `n` more. -/
theorem stepTimes_add {m : Nat} {s t : State} (h : stepTimes m s = .next t) (n : Nat) :
    stepTimes (m + n) s = stepTimes n t := by
  induction m generalizing s with
  | zero =>
    obtain rfl := Host.Outcome.next.inj h
    rw [Nat.zero_add]
  | succ m ih =>
    obtain ⟨u, first⟩ := stepAlwaysAnswersNext s
    simp only [stepTimes, first] at h
    rw [Nat.add_right_comm]
    simp only [stepTimes, first, ih h]

theorem Runs.trans {ops ops' : List Instr} {s t u : State} (h : Runs ops s t) (h' : Runs ops' t u) :
    Runs (ops ++ ops') s u where
  steps := by rw [List.length_append, stepTimes_add h.steps, h'.steps]
  tallies := h.tallies.trans h'.tallies

/-- A run leaves the program in place and the sequencer running. -/
theorem Runs.keeps {ops : List Instr} {s t : State} (h : Runs ops s t) (program : s.HasDefaultProgram)
    (running : s.run = .running) : t.HasDefaultProgram ∧ t.run = .running :=
  ⟨program.of_cfg_eq h.tallies.cfg, h.tallies.run.trans running⟩

/-- A run of one operation of the default program, when it leaves the sequencer running. -/
theorem runs_singleton {i : Instr} {s t : State} (program : s.HasDefaultProgram) (running : s.run = .running)
    (word : defaultInstr s.pc = some i) (h : exec i s = .next t) (running' : t.run = .running) : Runs [i] s t where
  steps := by simp [stepTimes, step_of_defaultInstr program running word, h]
  tallies := exec_tallies h running'

/-- From `pc` on the default program holds `ops`, all of which pass on. -/
def straightFrom : ProgAddr → List Instr → Bool
  | _, [] => true
  | pc, i :: rest => defaultInstr pc = some i && straight i && straightFrom (pc + 1) rest

/-- A straight stretch runs to its end, the link as it was. -/
theorem runs_straight {ops : List Instr} {s : State} (program : s.HasDefaultProgram) (running : s.run = .running)
    (h : straightFrom s.pc ops = true) :
    ∃ t, Runs ops s t ∧ t.pc = s.pc + BitVec.ofNat 8 ops.length ∧ t.lr = s.lr ∧ t.lrv = s.lrv := by
  induction ops generalizing s with
  | nil => exact ⟨s, ⟨rfl, .refl s⟩, by simp, rfl, rfl⟩
  | cons i rest ih =>
    obtain ⟨word, passes, h_rest⟩ :
        defaultInstr s.pc = some i ∧ straight i = true ∧ straightFrom (s.pc + 1) rest = true := by
      simpa [straightFrom, and_assoc] using h
    obtain ⟨u, executed, on⟩ := exec_straight passes s
    have first : Runs [i] s u := runs_singleton program running word executed (on.run.trans running)
    obtain ⟨t, runs_rest, pc, lr, lrv⟩ :=
      ih (program.of_cfg_eq first.tallies.cfg) (on.run.trans running) (by rwa [on.pc])
    refine ⟨t, first.trans runs_rest, ?_, lr.trans on.lr, lrv.trans on.lrv⟩
    rw [pc, on.pc, List.length_cons, Nat.add_comm, BitVec.ofNat_add, BitVec.add_assoc]
    rfl

/-! ### The cycle (R175) -/

/-- The main cycle up to `DISPATCH`: acquisition, analysis, smoothing, a dark frame (R176). -/
def cycleFront : List Instr := .acq :: analyze 0 ++ [.smooth, .clear]

/-- The routine of mode `m + 1` without its `RET` (R176, R177). -/
def routineOps : Fin 7 → List Instr
  | 0 => bars 0 .up 0
  | 1 => [.sweep 0 .c600 7 12 16]
  | 2 => [.ebkt 0 .up 2 16 0]
  | 3 => [.wash 0 .c600 3 28 0]
  | 4 => [.rawc 1 28]
  | 5 => .reload :: analyze 1 ++ bars 0 .up 0 ++ bars 1 .down 59
  | 6 => [.wash 0 .c1500 7 60 0]

/-- What is executed from `DISPATCH` to the return to `COMMIT`, by the mode read. -/
def renderOps (mode : ModeWord) : List Instr :=
  if h : Config.Recognised mode then [.dispatch] ++ (routineOps ⟨mode.toNat - 1, vecIndex_lt h⟩ ++ [.ret]) else [.dispatch]

/-- A whole cycle, by the mode read at `DISPATCH`. -/
def cycleOps (mode : ModeWord) : List Instr := cycleFront ++ renderOps mode ++ [.commit, .endc]

theorem cycleFront_listed : straightFrom 0 cycleFront = true := by decide +kernel

theorem routineOps_listed : ∀ m : Fin 7, straightFrom defaultVec[m] (routineOps m) = true ∧
    defaultInstr (defaultVec[m] + BitVec.ofNat 8 (routineOps m).length) = some .ret := by
  decide +kernel

/-- The table of R175: the steps of a cycle, its readings of the time base, and one `ACQ`, `SMOOTH` and `COMMIT`. -/
theorem cycleOps_counts : ∀ mode : ModeWord, (cycleOps mode).length = cycleSteps mode ∧
    (cycleOps mode).countP isSweep = (if mode.toNat = 2 then 1 else 0) ∧ (cycleOps mode).count .acq = 1 ∧
    (cycleOps mode).count .smooth = 1 ∧ (cycleOps mode).count .commit = 1 := by
  decide +kernel

/-- A routine, from its entry over the link to `COMMIT`. -/
theorem runs_routine (m : Fin 7) {s : State} (program : s.HasDefaultProgram) (running : s.run = .running)
    (pc : s.pc = defaultVec[m]) (link : s.lrv = true) (to_commit : s.lr = 0x0C) :
    ∃ t, Runs (routineOps m ++ [.ret]) s t ∧ t.pc = 0x0C ∧ t.lrv = false := by
  obtain ⟨listed, ends⟩ := routineOps_listed m
  obtain ⟨t, drawn, t_pc, t_lr, t_lrv⟩ := runs_straight program running (pc ▸ listed)
  obtain ⟨program', running'⟩ := drawn.keeps program running
  have word : defaultInstr t.pc = some .ret := by rw [t_pc, pc, ends]
  have returned := runs_singleton program' running' word (exec_ret_of_link (t_lrv.trans link)) running'
  exact ⟨_, drawn.trans returned, t_lr.trans to_commit, rfl⟩

/-- From `DISPATCH` to `COMMIT`: through the mode's routine and back over the link, or straight on. -/
theorem runs_render {s : State} (program : s.HasDefaultProgram) (running : s.run = .running) (pc : s.pc = 0x0B)
    (no_link : s.lrv = false) : ∃ t, Runs (renderOps s.mode) s t ∧ t.pc = 0x0C ∧ t.lrv = false := by
  have word : defaultInstr s.pc = some .dispatch := by rw [pc]; decide
  by_cases mode : Config.Recognised s.mode
  · have called := runs_singleton program running word (exec_dispatch_of_recognised no_link mode) running
    obtain ⟨program', running'⟩ := called.keeps program running
    obtain ⟨-, vec_default⟩ := program
    obtain ⟨t, drawn, t_pc, t_lrv⟩ := runs_routine ⟨s.mode.toNat - 1, vecIndex_lt mode⟩ program' running'
      (by simp [vec_default]) rfl (by simp [pc])
    rw [renderOps, dif_pos mode]
    exact ⟨t, called.trans drawn, t_pc, t_lrv⟩
  · have fell_through := runs_singleton program running word (exec_dispatch_of_unrecognised no_link mode) running
    rw [renderOps, dif_neg mode]
    exact ⟨_, fell_through, by rw [advance_pc, pc]; rfl, no_link⟩

/-- `COMMIT` and `ENDC`, from 0x0C back to the top. -/
theorem runs_end {s : State} (program : s.HasDefaultProgram) (running : s.run = .running) (pc : s.pc = 0x0C) :
    ∃ t, Runs [.commit, .endc] s t ∧ t.pc = 0 ∧ t.lrv = s.lrv := by
  have commit_word : defaultInstr s.pc = some .commit := by rw [pc]; decide
  have committed := runs_singleton program running commit_word (exec_commit s) running
  obtain ⟨program', running'⟩ := committed.keeps program running
  have endc_word : defaultInstr (advance (frameCommit s)).pc = some .endc := by
    rw [advance_pc, frameCommit_pc, pc]
    decide
  have ended := runs_singleton program' running' endc_word (exec_endc _) running'
  exact ⟨_, committed.trans ended, rfl, rfl⟩

/-- A whole cycle, from the top to the top. -/
theorem runs_cycle {s : State} (program : s.HasDefaultProgram) (running : s.run = .running) (pc : s.pc = 0)
    (no_link : s.lrv = false) : ∃ t, Runs (cycleOps s.mode) s t ∧ t.pc = 0 ∧ t.lrv = false := by
  obtain ⟨u, front, u_pc, -, u_lrv⟩ := runs_straight program running (pc ▸ cycleFront_listed)
  obtain ⟨u_program, u_running⟩ := front.keeps program running
  have at_dispatch : u.pc = 0x0B := by rw [u_pc, pc]; rfl
  obtain ⟨v, render, v_pc, v_lrv⟩ := runs_render u_program u_running at_dispatch (u_lrv.trans no_link)
  rw [front.tallies.mode] at render
  obtain ⟨v_program, v_running⟩ := render.keeps u_program u_running
  obtain ⟨t, ending, t_pc, t_lrv⟩ := runs_end v_program v_running v_pc
  exact ⟨t, (front.trans render).trans ending, t_pc, t_lrv.trans v_lrv⟩

/-- Settles O60: the cycle's run, its tally read with the counts of R175. -/
theorem defaultCycleReturnsToTop : Obligations.DefaultCycleReturnsToTop := by
  intro s program running pc no_link
  obtain ⟨t, ⟨steps, tally⟩, t_pc, t_lrv⟩ := runs_cycle program running pc no_link
  obtain ⟨length, sweeps, acquisitions, smoothings, commits⟩ := cycleOps_counts s.mode
  obtain ⟨emitted, frames⟩ := tally.emitted
  have one_frame : emitted.length = 1 := by
    have total := tally.frames
    rw [← frames, List.length_append, commits] at total
    omega
  obtain ⟨f, rfl⟩ := List.length_eq_one_iff.mp one_frame
  refine ⟨t, f, length ▸ steps, tally.run.trans running, t_pc, t_lrv, tally.mode, tally.cfg, ?_, ?_, frames.symm, ?_⟩
  · rw [tally.samples, acquisitions]
  · rw [tally.times, sweeps]
  · rw [tally.count, smoothings]
    rfl

end Sys2Proof.Machine
end

section
/-! PROOFS. Faults (`60_exceptions.md` R184 to R187) and reset (`70_reset_and_hazards.md` R201): what taking a fault writes, which
operation takes which, and the registers after reset. -/

namespace Sys2Proof.Machine

/-! ### Taking a fault (R184) -/

/-- An operation that completes leaves a running sequencer unfaulted. -/
theorem Completes.run_ne_faulted {i : Instr} {s t : State} (h : Completes s t i) (running : s.run = .running) :
    t.run ≠ .faulted := by
  obtain ⟨-, -, -, -, kept | halted⟩ := h.keeps
  · simp [kept, running]
  · simp [halted]

/-- Settles O9: an illegal word and a failed check take the fault by `raise`, and an operation that completes does not end in
`FAULTED`. -/
theorem faultWritesThreeRegisters : Obligations.FaultWritesThreeRegisters := by
  intro s t running h faulted
  rcases step_cases h with ⟨stopped, -⟩ | ⟨-, -, rfl⟩ | ⟨-, i, -, executed⟩
  · exact absurd running stopped
  · exact ⟨.illegalOp, by decide, rfl⟩
  · rcases exec_cases executed with ⟨c, hc, rfl⟩ | done
    · exact ⟨c, hc, rfl⟩
    · exact absurd faulted (done.run_ne_faulted running)

/-! ### The checks of an operation (R185, R186) -/

/-- The condition of `LINK` (R185): `DISPATCH` with a routine open, or `RET` with none. -/
def breaksLink (i : Instr) (s : State) : Prop := i = .dispatch ∧ s.lrv = true ∨ i = .ret ∧ s.lrv = false

theorem exec_of_breaksLink {i : Instr} {s : State} (h : breaksLink i s) : exec i s = .next (raise .link s) := by
  rcases h with ⟨rfl, link⟩ | ⟨rfl, no_link⟩
  · exact exec_dispatch_of_link link
  · exact exec_ret_of_no_link no_link

/-- `LINK` belongs to `DISPATCH` and `RET`, which have no footprint. -/
theorem not_leavesPixels_of_breaksLink {i : Instr} {s : State} (h : breaksLink i s) : ¬ leavesPixels i := by
  rcases h with ⟨rfl, -⟩ | ⟨rfl, -⟩ <;> simp [leavesPixels, footprint]

/-- An operation with an index outside 0 to 59 takes `PIXEL_RANGE`: its footprint check fails, and where a check of `len`
stands before it, that one is met. -/
theorem exec_of_leavesPixels {i : Instr} (wf : wellFormed i = true) (h : leavesPixels i) (s : State) :
    exec i s = .next (raise .pixelRange s) := by
  cases i with
  | tier | rawc =>
    refine if_neg fun fits => ?_
    exact (segFits_iff (by decide)).mp fits h
  | ebkt _ _ _ len _ | wash _ _ _ len _ | sweep _ _ _ len _ =>
    have len_ne : len ≠ 0 := by simpa [wellFormed] using wf
    refine (if_neg len_ne).trans (if_neg fun fits => ?_)
    exact (segFits_iff (len_toNat_ne_zero len_ne)).mp fits h
  | nop | halt | endc | dispatch | ret | acq | reload | dcr | iir | win | fft | mag | band | nrg | norm | smooth | clear
  | commit => simp [leavesPixels, footprint] at h

/-- Apart from the four operations that write `PC` or `RUN` otherwise, an operation inside the line passes to the next word. -/
theorem straight_of_inside {i : Instr} (wf : wellFormed i = true) (inside : ¬ leavesPixels i)
    (passing : i ∉ [.halt, .endc, .dispatch, .ret]) : straight i = true := by
  cases i with
  | halt | endc | dispatch | ret => simp at passing
  | tier | rawc =>
    rw [straight, segFits_iff (by decide)]
    exact inside
  | ebkt _ _ _ len _ | wash _ _ _ len _ | sweep _ _ _ len _ =>
    have len_ne : len ≠ 0 := by simpa [wellFormed] using wf
    rw [straight, Bool.and_eq_true, decide_eq_true_iff, segFits_iff (len_toNat_ne_zero len_ne)]
    exact ⟨len_ne, inside⟩
  | nop | acq | reload | dcr | iir | win | fft | mag | band | nrg | norm | smooth | clear | commit => rfl

/-- An operation with its checks met does not end in `FAULTED`. -/
theorem exec_run_ne_faulted {i : Instr} {s t : State} (running : s.run = .running) (wf : wellFormed i = true)
    (inside : ¬ leavesPixels i) (paired : ¬ breaksLink i s) (h : exec i s = .next t) : t.run ≠ .faulted := by
  by_cases passing : i ∈ [.halt, .endc, .dispatch, .ret]
  · simp only [List.mem_cons, List.not_mem_nil, or_false] at passing
    rcases passing with rfl | rfl | rfl | rfl
    · obtain rfl := Host.Outcome.next.inj (exec_halt s ▸ h)
      simp
    · obtain rfl := Host.Outcome.next.inj (exec_endc s ▸ h)
      simp [running]
    · have no_link : s.lrv = false := by simpa [breaksLink] using paired
      by_cases mode : Config.Recognised s.mode
      · obtain rfl := Host.Outcome.next.inj (exec_dispatch_of_recognised no_link mode ▸ h)
        simp [running]
      · obtain rfl := Host.Outcome.next.inj (exec_dispatch_of_unrecognised no_link mode ▸ h)
        simp [running]
    · have link : s.lrv = true := by simpa [breaksLink] using paired
      obtain rfl := Host.Outcome.next.inj (exec_ret_of_link link ▸ h)
      simp [running]
  · obtain ⟨u, executed, passes⟩ := exec_straight (straight_of_inside wf inside passing) s
    obtain rfl := Host.Outcome.next.inj (executed.symm.trans h)
    simp [passes.run, running]

/-- What a well-formed operation answers while running, by its checks: `PIXEL_RANGE`, `LINK`, or no fault and the cause kept. -/
theorem exec_by_checks {i : Instr} {s t : State} (running : s.run = .running) (wf : wellFormed i = true)
    (h : exec i s = .next t) :
    (leavesPixels i ∧ ¬ breaksLink i s ∧ t = raise .pixelRange s) ∨
    (¬ leavesPixels i ∧ breaksLink i s ∧ t = raise .link s) ∨
    (¬ leavesPixels i ∧ ¬ breaksLink i s ∧ t.run ≠ .faulted ∧ t.cause = s.cause) := by
  rcases Classical.em (breaksLink i s) with unpaired | paired
  · exact .inr (.inl ⟨not_leavesPixels_of_breaksLink unpaired, unpaired,
      Host.Outcome.next.inj (h.symm.trans (exec_of_breaksLink unpaired))⟩)
  rcases Classical.em (leavesPixels i) with outside | inside
  · exact .inl ⟨outside, paired, Host.Outcome.next.inj (h.symm.trans (exec_of_leavesPixels wf outside s))⟩
  have healthy := exec_run_ne_faulted running wf inside paired h
  have done : Completes s t i := (exec_cases h).resolve_left fun ⟨c, _, e⟩ => healthy (e ▸ raise_run s c)
  obtain ⟨cause_kept, -⟩ := done.keeps
  exact .inr (.inr ⟨inside, paired, healthy, cause_kept⟩)

/-- Settles O10: an illegal word is no operation, and of an operation `exec_by_checks` says which fault it takes, if any. -/
theorem faultCausesExactly : Obligations.FaultCausesExactly := by
  intro s t running no_cause h
  rcases step_cases h with ⟨stopped, -⟩ | ⟨-, ⟨why, illegal⟩, rfl⟩ | ⟨-, i, decoded, executed⟩
  · exact absurd running stopped
  · simp [illegal]
  · obtain ⟨-, wf⟩ := decodedWordIsItsEncoding _ _ decoded
    rcases exec_by_checks running wf executed with
      ⟨outside, paired, rfl⟩ | ⟨inside, unpaired, rfl⟩ | ⟨inside, paired, healthy, cause_kept⟩
    · simpa [decoded, outside, breaksLink] using paired
    · simpa [decoded, inside, breaksLink] using unpaired
    · simpa [decoded, inside, healthy, cause_kept, no_cause, breaksLink] using paired

/-! ### Reset (R201) -/

/-- Settles O14: reset builds its state from the table of R201 and the configuration it finds. -/
theorem resetGivesRegisterValues : Obligations.ResetGivesRegisterValues := by
  intro s t h
  obtain rfl : resetEvent s = t := Host.Outcome.next.inj h
  exact ⟨rfl, rfl, rfl, rfl, rfl, rfl, rfl, rfl, rfl, rfl, rfl, rfl, rfl, rfl, rfl⟩

end Sys2Proof.Machine
end

section
/-! PROOFS. The no-overflow bounds (`70_reset_and_hazards.md` R209) of a block from `ACQ` or `RELOAD` to `MAG`, stage by stage. No
bound needs the absence of a wrap, since a wrap never takes a value further from 0 (`abs_toInt_wrapS32_le`). -/

namespace Sys2Proof.Machine

/-- Executing a list operation by operation, read backwards: the first answered, and the rest ran from its state. -/
theorem execAll_cons_eq_next {i : Instr} {rest : List Instr} {s t : State} :
    execAll (i :: rest) s = .next t ↔ ∃ u, exec i s = .next u ∧ execAll rest u = .next t := by
  obtain ⟨u, hu⟩ := exec_answers i s
  simp [execAll_cons hu, hu]

/-! ### The time-domain stages -/

/-- The arrays that `WIN` leaves of a loaded block: no element of `RE` beyond 4095 in Q8, and `IM` zero. -/
def TimeBounded (s : State) : Prop := ∀ i : Fin 128, |s.re[i].toInt| ≤ 1048320 ∧ s.im[i] = 0

/-- `ACQ` and `RELOAD` leave `IM` zero (R91, R92). -/
theorem im_eq_zeroBlock {s t : State} (h : exec .acq s = .next t ∨ exec .reload s = .next t) : t.im = zeroBlock := by
  rcases h with h | h
  · obtain rfl := Host.Outcome.next.inj (exec_acq s ▸ h)
    rfl
  · obtain rfl := Host.Outcome.next.inj (exec_reload s ▸ h)
    rfl

/-- The other operations but `FFT` keep `IM` (R36). -/
theorem exec_keeps_im {i : Instr} {s t : State} (h : exec i s = .next t) (other : i ∉ [.acq, .reload, .fft]) : t.im = s.im := by
  obtain ⟨-, -, -, -, -, -, -, -, only_named, -⟩ := onlyNamedOperationsWrite i s t h
  by_contra written
  exact other (by simpa using only_named written)

/-- `DCR` brings the loaded block within the bound; neither `IIR` nor `WIN` enlarges the peak, and none of the three writes
`IM`. -/
theorem timeBounded_of_execAll {load : Instr} (hload : load = .acq ∨ load = .reload) {rest : List Instr} {s t : State}
    (h : execAll (load :: .dcr :: .iir :: .win :: rest) s = .next t) : ∃ u, TimeBounded u ∧ execAll rest u = .next t := by
  simp only [execAll_cons_eq_next] at h
  obtain ⟨a, loaded, b, removed, c, smoothed, d, windowed, rest_ran⟩ := h
  replace loaded : exec .acq s = .next a ∨ exec .reload s = .next a := by
    rcases hload with rfl | rfl
    · exact .inl loaded
    · exact .inr loaded
  obtain ⟨-, removed_le⟩ := dcrSumIsZeroAfterAcquisition s a b loaded removed
  obtain ⟨peak_kept, -⟩ := iirPeakNeverGrows b c smoothed
  have im_zero : d.im = zeroBlock := by
    rw [exec_keeps_im windowed (by decide), exec_keeps_im smoothed (by decide), exec_keeps_im removed (by decide),
      im_eq_zeroBlock loaded]
  have re_eq : d.re = windowBlock c.re := by
    rw [← Host.Outcome.next.inj ((exec_win c).symm.trans windowed), advance_re]
  refine ⟨d, fun i => ⟨?_, ?_⟩, rest_ran⟩
  · rw [re_eq]
    exact (abs_windowBlock_le c.re i).trans (peak_kept 1048320 removed_le i)
  · rw [im_zero]
    exact getElem_zeroBlock i i.isLt

/-! ### The stages of `FFT` -/

/-- No part of an element of the spectrum is further from 0 than `B`. -/
def Spectrum.Within (x : Spectrum) (B : Int) : Prop := ∀ i : Fin 128, |x.re[i].toInt| ≤ B ∧ |x.im[i].toInt| ≤ B

/-- Over the table of R110 the two parts of a twiddle word together are at most 46340 (R209). -/
theorem twiddle_abs_add_le : ∀ k : Fin 64, |twiddleRe k| + |twiddleIm k| ≤ 46340 := by decide +kernel

/-- The twiddle index of a butterfly lies in the table (R112). -/
theorem butterflyAt_twiddle_lt {t : Nat} (ht : t < 7) (i : Nat) : (butterflyAt (t + 1) i).k < 64 := by
  have steps : ∀ t < 7, 0 < 128 / 2 ^ (t + 1) ∧ 2 ^ t * (128 / 2 ^ (t + 1)) = 64 := by decide
  obtain ⟨step_pos, whole⟩ := steps t ht
  have place : i % 2 ^ t < 2 ^ t := Nat.mod_lt _ (Nat.two_pow_pos t)
  calc (butterflyAt (t + 1) i).k = i % 2 ^ t * (128 / 2 ^ (t + 1)) := by rw [butterflyAt_succ, groupButterfly]
    _ < 2 ^ t * (128 / 2 ^ (t + 1)) := Nat.mul_lt_mul_of_pos_right place step_pos
    _ = 64 := whole

/-- A combination of two values within `B`, by coefficients that are together at most 46340, before and after rounding. -/
theorem abs_roundQ15_combination_le {a b c d B : Int} (ha : |a| ≤ B) (hb : |b| ≤ B) (coeffs : |c| + |d| ≤ 46340) :
    |roundQ15 (a * c + b * d)| ≤ (46340 * B + 16384) / 32768 := by
  have exact_le : |a * c + b * d| ≤ 46340 * B :=
    calc |a * c + b * d| ≤ |a| * |c| + |b| * |d| := by
          rw [← abs_mul, ← abs_mul]
          exact abs_add_le _ _
      _ ≤ B * |c| + B * |d| := by gcongr
      _ = (|c| + |d|) * B := by ring
      _ ≤ 46340 * B := mul_le_mul_of_nonneg_right coeffs ((abs_nonneg a).trans ha)
  obtain ⟨lo, hi⟩ := roundQ15_spec (a * c + b * d)
  rw [abs_le] at exact_le ⊢
  omega

/-- The growth of the bound in one stage (R209): the operand, and the twiddled one with its rounding. -/
def stageBound (B : Int) : Int := B + (46340 * B + 16384) / 32768

theorem abs_product_le {x : Spectrum} {B : Int} (within : x.Within B) {b : Butterfly} (hq : b.q < 128) (hk : b.k < 64) :
    |productRe x b| ≤ (46340 * B + 16384) / 32768 ∧ |productIm x b| ≤ (46340 * B + 16384) / 32768 := by
  obtain ⟨re_le, im_le⟩ := within ⟨b.q, hq⟩
  have coeffs := twiddle_abs_add_le ⟨b.k, hk⟩
  rw [productRe, productIm, signedAt_eq _ hq, signedAt_eq _ hq, sub_eq_add_neg, ← mul_neg]
  exact ⟨abs_roundQ15_combination_le re_le im_le (by rwa [abs_neg]),
    abs_roundQ15_combination_le re_le im_le (by rwa [add_comm])⟩

/-- Both outputs of a butterfly's part are within the bound of its operand and the bound of its product together. -/
theorem abs_butterfly_le {u v B C : Int} (hu : |u| ≤ B) (hv : |v| ≤ C) {c : Prop} [Decidable c] :
    |(if c then wrapS32 (u + v) else wrapS32 (u - v)).toInt| ≤ B + C := by
  split
  · exact (abs_toInt_wrapS32_le _).trans ((abs_add_le _ _).trans (add_le_add hu hv))
  · exact (abs_toInt_wrapS32_le _).trans ((abs_sub _ _).trans (add_le_add hu hv))

theorem fftStage_within {t : Nat} (ht : t < 7) {x : Spectrum} {B : Int} (within : x.Within B) :
    (fftStage (t + 1) x).Within (stageBound B) := by
  intro i
  obtain ⟨hp, hq⟩ := butterflyAt_lt ht i.isLt
  obtain ⟨re_le, im_le⟩ := within ⟨_, hp⟩
  obtain ⟨vr_le, vi_le⟩ := abs_product_le within hq (butterflyAt_twiddle_lt ht i)
  simp only [fftStage, Fin.getElem_fin, getElem_tabulate, signedAt_eq _ hp]
  exact ⟨abs_butterfly_le re_le vr_le, abs_butterfly_le im_le vi_le⟩

theorem bitReverse_within {re im : Vector Word 128} {B : Int} (within : Spectrum.Within ⟨re, im⟩ B) :
    Spectrum.Within ⟨bitReverse re, bitReverse im⟩ B := by
  intro i
  simp only [Fin.getElem_fin, getElem_bitReverse _ _ i.isLt]
  exact within ⟨_, (bitrev7_involutive i).1⟩

/-- The bound grows once in each of the seven stages. -/
theorem fftBlock_within {x : Spectrum} {B : Int} (within : x.Within B) : (fftBlock x).Within (stageBound^[7] B) :=
  forUp_induction (P := fun t (y : Spectrum) => y.Within (stageBound^[t] B)) (bitReverse_within within) fun t y ht before => by
    rw [Function.iterate_succ_apply']
    exact fftStage_within ht before

/-- `M` after seven stages (R209). -/
theorem stageBound_iterate_seven : stageBound^[7] 1048320 = 501057023 := by decide

theorem fftBlock_within_of_timeBounded {s : State} (h : TimeBounded s) : (fftBlock ⟨s.re, s.im⟩).Within 501057023 := by
  rw [← stageBound_iterate_seven]
  refine fftBlock_within fun i => ?_
  obtain ⟨re_le, im_zero⟩ := h i
  exact ⟨re_le, by simp only [im_zero]; decide⟩

/-! ### `MAG` -/

/-- A magnitude is at most the root of 2 times the larger bound: `2 * 501057023^2 < 708601888^2` (R209). -/
theorem magnitude_lt {a b : Int} (ha : |a| ≤ 501057023) (hb : |b| ≤ 501057023) : magnitude a b < 708601888 := by
  obtain ⟨square_le, -⟩ := magnitude_spec a b
  have a_sq_le : a * a ≤ 501057023 * 501057023 := abs_mul_abs_self a ▸ mul_self_le_mul_self (abs_nonneg a) ha
  have b_sq_le : b * b ≤ 501057023 * 501057023 := abs_mul_abs_self b ▸ mul_self_le_mul_self (abs_nonneg b) hb
  have square_lt : (magnitude a b : Int) * magnitude a b < 708601888 * 708601888 := by omega
  exact Nat.mul_self_lt_mul_self_iff.mp (mod_cast square_lt)

/-- Such a magnitude is written to its signed word unchanged. -/
theorem getElem_magnitudeBlock_bounds {re im : Vector Word 128} (within : Spectrum.Within ⟨re, im⟩ 501057023) (i : Fin 128) :
    0 ≤ (magnitudeBlock re im)[i].toInt ∧ (magnitudeBlock re im)[i].toInt < 708601888 := by
  obtain ⟨re_le, im_le⟩ := within i
  have small := magnitude_lt re_le im_le
  rw [Fin.getElem_fin, getElem_magnitudeBlock _ _ _ i.isLt, ← wrapS32_natCast,
    wrapS32_toInt_of_range (by omega) (by exact_mod_cast small.trans (by decide))]
  exact ⟨Int.natCast_nonneg _, mod_cast small⟩

/-- Settles O38: `WIN` leaves the arrays `TimeBounded`, from which `FFT` and `MAG` go on. -/
theorem acquiredSpectrumIsBounded : Obligations.AcquiredSpectrumIsBounded := by
  refine fun load hload => ⟨fun s t h => ?_, fun s t h => ?_, fun s t h => ?_⟩
  · obtain ⟨u, bounded, ended⟩ := timeBounded_of_execAll hload h
    obtain rfl := Host.Outcome.next.inj ended
    exact bounded
  · obtain ⟨u, bounded, transformed⟩ := timeBounded_of_execAll hload h
    rw [execAll_singleton] at transformed
    obtain rfl := Host.Outcome.next.inj (exec_fft u ▸ transformed)
    intro i
    obtain ⟨re_le, im_le⟩ := fftBlock_within_of_timeBounded bounded i
    exact ⟨re_le.trans_lt (by decide), im_le.trans_lt (by decide)⟩
  · obtain ⟨u, bounded, ran⟩ := timeBounded_of_execAll hload h
    rw [execAll_cons (exec_fft u), execAll_singleton] at ran
    obtain rfl := Host.Outcome.next.inj (exec_mag _ ▸ ran)
    exact getElem_magnitudeBlock_bounds (fftBlock_within_of_timeBounded bounded)

end Sys2Proof.Machine
end

section
/-! PROOFS. The dual path (`70_reset_and_hazards.md` R210): what the eight operations of an analysis leave, as a function of the
arrays they start from. -/

namespace Sys2Proof.Machine

/-- The magnitudes that `DCR`, `IIR`, `WIN`, `FFT` and `MAG` make of the working arrays. -/
def analysedMagnitudes (re im : Vector Word 128) : Vector Word 128 :=
  let x := fftBlock ⟨windowBlock (smoothBlock (removeMean re)), im⟩
  magnitudeBlock x.re x.im

/-- The energy that `NRG` writes of a block of magnitudes. -/
def energyOf (mags : Vector Word 128) : Word := wrapU32 (rms mags)

/-- The triple that `BAND`, `NRG` and `NORM` leave of a block of magnitudes: normalised unless the energy is 0. -/
def tripleOf (mags : Vector Word 128) : Vector Word 3 :=
  if energyOf mags = 0 then bandMeans mags else normalisedBands (bandMeans mags) (energyOf mags)

/-- What every operation of a list keeps, the list keeps. -/
theorem execAll_keeps {α : Type} {f : State → α} {ops : List Instr} {s t : State}
    (kept : ∀ i ∈ ops, ∀ s t, exec i s = .next t → f t = f s) (h : execAll ops s = .next t) : f t = f s := by
  induction ops generalizing s with
  | nil => rw [Host.Outcome.next.inj h]
  | cons i rest ih =>
    obtain ⟨first, later⟩ := List.forall_mem_cons.mp kept
    obtain ⟨u, executed, rest_ran⟩ := execAll_cons_eq_next.mp h
    exact (ih later rest_ran).trans (first s u executed)

/-- `RAW` is written by `ACQ` and `AVG` by `SMOOTH` (R23, R34), which no analysis contains. -/
theorem analyze_keeps_raw_avg {bank : Bank} {s t : State} (h : execAll (analyze bank) s = .next t) :
    t.raw = s.raw ∧ t.avg = s.avg := by
  have not_mem : .acq ∉ analyze bank ∧ .smooth ∉ analyze bank := by simp [analyze]
  refine ⟨execAll_keeps (f := State.raw) (fun i mem s t h => ?_) h, execAll_keeps (f := State.avg) (fun i mem s t h => ?_) h⟩
  · obtain ⟨-, -, -, -, -, -, -, only_acq, -⟩ := onlyNamedOperationsWrite i s t h
    exact by_contra fun written => not_mem.1 (only_acq written ▸ mem)
  · obtain ⟨-, -, only_smooth, -⟩ := onlyNamedOperationsWrite i s t h
    exact by_contra fun written => not_mem.2 (only_smooth written ▸ mem)

/-- The five array stages leave the magnitudes in `RE` and do not reach the banks. -/
theorem execAll_stages (s : State) (rest : List Instr) : ∃ u : State,
    execAll (.dcr :: .iir :: .win :: .fft :: .mag :: rest) s = execAll rest u ∧
    u.re = analysedMagnitudes s.re s.im ∧ u.band = s.band ∧ u.energy = s.energy := by
  rw [execAll_cons (exec_dcr s), execAll_cons (exec_iir _), execAll_cons (exec_win _), execAll_cons (exec_fft _),
    execAll_cons (exec_mag _)]
  exact ⟨_, rfl, rfl, rfl, rfl⟩

theorem band_writes {bank : Bank} {s t : State} (h : exec (.band bank) s = .next t) :
    t.band = s.band.set bank (bandMeans s.re) ∧ t.energy = s.energy ∧ t.re = s.re := by
  obtain rfl := Host.Outcome.next.inj (exec_band bank s ▸ h)
  exact ⟨rfl, rfl, rfl⟩

theorem nrg_writes {bank : Bank} {s t : State} (h : exec (.nrg bank) s = .next t) :
    t.band = s.band ∧ t.energy = s.energy.set bank (energyOf s.re) := by
  obtain rfl := Host.Outcome.next.inj (exec_nrg bank s ▸ h)
  exact ⟨rfl, rfl⟩

/-- In both cases of R122 the bank takes what `norm_leaves` says, and nothing else of the two registers changes. -/
theorem norm_writes {bank : Bank} {s t : State} (h : exec (.norm bank) s = .next t) :
    t.band = s.band.set bank t.band[bank] ∧ t.energy = s.energy := by
  by_cases energy_zero : s.energy[bank] = 0
  · obtain rfl := Host.Outcome.next.inj (exec_norm_of_energy_zero energy_zero ▸ h)
    simp
  · obtain rfl := Host.Outcome.next.inj (exec_norm_of_energy_ne_zero energy_zero ▸ h)
    simp

/-- `BAND`, `NRG` and `NORM` write the triple and the energy of the block of magnitudes in `RE`. -/
theorem execAll_measures {bank : Bank} {s t : State} (h : execAll [.band bank, .nrg bank, .norm bank] s = .next t) :
    t.band = s.band.set bank (tripleOf s.re) ∧ t.energy = s.energy.set bank (energyOf s.re) := by
  obtain ⟨u, banded, h⟩ := execAll_cons_eq_next.mp h
  obtain ⟨v, measured, normed⟩ := execAll_cons_eq_next.mp h
  rw [execAll_singleton] at normed
  obtain ⟨band_u, energy_u, re_u⟩ := band_writes banded
  obtain ⟨band_v, energy_v⟩ := nrg_writes measured
  obtain ⟨band_t, energy_t⟩ := norm_writes normed
  have triple : t.band[bank] = tripleOf s.re := by
    rw [norm_leaves normed, band_v, band_u, energy_v, energy_u, re_u]
    simp [tripleOf]
  refine ⟨?_, by rw [energy_t, energy_v, energy_u, re_u]⟩
  rw [band_t, triple, band_v, band_u]
  simp

/-- The whole analysis: the stages, then the measures. -/
theorem analyze_writes {bank : Bank} {s t : State} (h : execAll (analyze bank) s = .next t) :
    t.band = s.band.set bank (tripleOf (analysedMagnitudes s.re s.im)) ∧
    t.energy = s.energy.set bank (energyOf (analysedMagnitudes s.re s.im)) := by
  obtain ⟨u, rest_ran, re, band, energy⟩ := execAll_stages s [.band bank, .nrg bank, .norm bank]
  rw [← re, ← band, ← energy]
  exact execAll_measures (rest_ran.symm.trans h)

/-- Settles O58: both analyses start from the same arrays, and an analysis writes one bank. -/
theorem dualPathGivesSameTriple : Obligations.DualPathGivesSameTriple := by
  intro s t u v live same_raw second
  obtain ⟨a, acquired, live⟩ := execAll_cons_eq_next.mp live
  obtain ⟨b, reloaded, second⟩ := execAll_cons_eq_next.mp second
  obtain ⟨band_t, energy_t⟩ := analyze_writes live
  obtain ⟨band_v, energy_v⟩ := analyze_writes second
  obtain ⟨raw_t, -⟩ := analyze_keeps_raw_avg live
  obtain ⟨raw_v, avg_v⟩ := analyze_keeps_raw_avg second
  obtain ⟨-, -, restores⟩ := reloadRestoresAcquiredArrays
  obtain ⟨re, im⟩ := restores s a u b acquired (same_raw.trans raw_t) reloaded
  obtain rfl := Host.Outcome.next.inj (exec_reload u ▸ reloaded)
  rw [re, im] at band_v energy_v
  simp [band_t, energy_t, band_v, energy_v, raw_v, avg_v]

end Sys2Proof.Machine
end
